-- ==== Sys2Proof/Word.lean ====
section
/-! DEFINITION. The words of the block: 64-bit locations, F64 bit patterns, 32-bit port addresses (spec/00_scope.md section 5,
spec/20_memory.md R60). -/

namespace Sys2Proof

/-- A location's contents: 64 bits, bit 0 least significant (00_scope section 5; R60). -/
abbrev Word := BitVec 64

/-- An IEEE 754 binary64 value, held by its standard bit pattern (00_scope section 5; R103). -/
abbrev F64 := BitVec 64

/-- A byte address on the host port, as an offset from the block's base (R60, R63). -/
abbrev Addr := BitVec 32

/-- One byte of a location (R65). -/
abbrev Byte := BitVec 8

end Sys2Proof
end

