-- ==== Sys2Proof/Syntax.lean ====
section
/-! DEFINITION. The ten commands of spec/30_encoding.md R92, one constructor for each row of spec/opcode_table.json. Operands that do
not stand in the command word (spectra, impulse responses, F64 scalars) are read from registers and buffers (R90). -/

namespace Sys2Proof

/-- The smoothing mode, bit 8 of CONFIG and of ACT_CFG (R29, R91, R161). -/
inductive SmoothMode where
  /-- 0: single-shot, the document's "Truncating". -/
  | truncating
  /-- 1: continuous, the document's "Sliding". -/
  | sliding
  deriving DecidableEq, Repr

/-- A command, decoded. -/
inductive Instr where
  /-- NOP, OPC 0x00 (R224). -/
  | nop
  /-- START, OPC 0x01 (R221). -/
  | start
  /-- STOP, OPC 0x02 (R223). -/
  | stop
  /-- CONFIG, OPC 0x03: MODE, SCAP and FCAP (R94, R222). -/
  | config (mode : SmoothMode) (scap fcap : Nat)
  /-- FRAME, OPC 0x04: V says that the predictor produced a frame (R95, R226). -/
  | frame (v : Bool)
  /-- SYNTH, OPC 0x05 (R227). -/
  | synth
  /-- PUSH, OPC 0x06 (R228). -/
  | push
  /-- INSTALL, OPC 0x07 (R229). -/
  | install
  /-- SETFREQ, OPC 0x08 (R231). -/
  | setfreq
  /-- CLRERR, OPC 0x09 (R232). -/
  | clrerr
  deriving DecidableEq, Repr

end Sys2Proof
end

