-- ==== Sys2Proof/Decode.lean ====
section
/-! DEFINITION. The command word (spec/30_encoding.md R90 to R97): the match and mask table, the decoder, total on every 64-bit word
and rejecting by name, and the encoder. -/

namespace Sys2Proof

/-- Why a word is no command (R96). -/
inductive DecodeError where
  /-- OPC is in 0x0A to 0xFF. -/
  | reservedOpcode
  /-- OPC is defined, and a bit that must be 0 is set. -/
  | mustBeZeroBitSet
  deriving DecidableEq, Repr

/-- One row of R93: a word `w` selects it when `w AND mask = pattern`. -/
structure OpcodeRow where
  /-- The match column. -/
  pattern : Word
  /-- The mask column. -/
  mask : Word
  /-- The command, with its operands read from the word. -/
  build : Word → Instr

/-- OPC, bits 7 to 0 (R91). -/
def opcodeField (w : Word) : BitVec 8 := w.extractLsb' 0 8

/-- MODE, bit 8 (R94). -/
def modeField (w : Word) : SmoothMode := if w.getLsbD 8 then .sliding else .truncating

/-- SCAP, bits 31 to 16 (R94). -/
def scapField (w : Word) : Nat := (w.extractLsb' 16 16).toNat

/-- FCAP, bits 47 to 32 (R94). -/
def fcapField (w : Word) : Nat := (w.extractLsb' 32 16).toNat

/-- V, bit 8 (R95). -/
def vField (w : Word) : Bool := w.getLsbD 8

/-- The decoding table of R93, in its order. -/
def opcodeTable : List OpcodeRow :=
  [ ⟨0x0000000000000000#64, 0xFFFFFFFFFFFFFFFF#64, fun _ => .nop⟩,
    ⟨0x0000000000000001#64, 0xFFFFFFFFFFFFFFFF#64, fun _ => .start⟩,
    ⟨0x0000000000000002#64, 0xFFFFFFFFFFFFFFFF#64, fun _ => .stop⟩,
    ⟨0x0000000000000003#64, 0xFFFF00000000FEFF#64, fun w => .config (modeField w) (scapField w) (fcapField w)⟩,
    ⟨0x0000000000000004#64, 0xFFFFFFFFFFFFFEFF#64, fun w => .frame (vField w)⟩,
    ⟨0x0000000000000005#64, 0xFFFFFFFFFFFFFFFF#64, fun _ => .synth⟩,
    ⟨0x0000000000000006#64, 0xFFFFFFFFFFFFFFFF#64, fun _ => .push⟩,
    ⟨0x0000000000000007#64, 0xFFFFFFFFFFFFFFFF#64, fun _ => .install⟩,
    ⟨0x0000000000000008#64, 0xFFFFFFFFFFFFFFFF#64, fun _ => .setfreq⟩,
    ⟨0x0000000000000009#64, 0xFFFFFFFFFFFFFFFF#64, fun _ => .clrerr⟩ ]

/-- The word selects the row (R93). -/
def OpcodeRow.selects (r : OpcodeRow) (w : Word) : Bool := w &&& r.mask == r.pattern

/-- The decoder of R93 and R96. -/
def decode (w : Word) : Except DecodeError Instr :=
  match opcodeTable.find? (fun r => r.selects w) with
  | some r => .ok (r.build w)
  | none => if (opcodeField w).toNat < 0x0A then .error .mustBeZeroBitSet else .error .reservedOpcode

/-- The word of R91's figure: {0, FCAP, SCAP, 0, M/V, OPC}. -/
def commandWord (fcap scap : Nat) (mv : Bool) (opc : BitVec 8) : Word :=
  0#16 ++ BitVec.ofNat 16 fcap ++ BitVec.ofNat 16 scap ++ 0#7 ++ BitVec.ofBool mv ++ opc

/-- The mode as CONFIG's and ACT_CFG's bit 8 (R29, R91). -/
def SmoothMode.bit : SmoothMode → Bool
  | .truncating => false
  | .sliding => true

/-- OPC of a command (R92). -/
def Instr.opcode : Instr → BitVec 8
  | .nop => 0x00#8
  | .start => 0x01#8
  | .stop => 0x02#8
  | .config _ _ _ => 0x03#8
  | .frame _ => 0x04#8
  | .synth => 0x05#8
  | .push => 0x06#8
  | .install => 0x07#8
  | .setfreq => 0x08#8
  | .clrerr => 0x09#8

/-- The word of a command (R91). -/
def encode (i : Instr) : Word :=
  match i with
  | .config mode scap fcap => commandWord fcap scap mode.bit i.opcode
  | .frame v => commandWord 0 0 v i.opcode
  | .nop | .start | .stop | .synth | .push | .install | .setfreq | .clrerr => commandWord 0 0 false i.opcode

/-- The instruction the decoder reads from an instruction whose low `nbits` bits are `w` and whose other bits are 0; none where it
refuses, and none for a number that is no 64-bit word (R90: one length, one format). -/
def decodeTableWord (nbits w : Nat) : Option Instr :=
  if w % 2 ^ nbits < 2 ^ 64 then (decode (BitVec.ofNat 64 (w % 2 ^ nbits))).toOption else none

end Sys2Proof
end

