-- ==== Sys2Proof/Config.lean ====
section
/-! DEFINITION. What an instance of the block fixes (spec/00_scope.md section 4), and the free values: opaque constants with no
body, one for each value the spec leaves open (spec/93_implementation_defined.md part 1); the synthesizer's, `Config.synthUnit`, stands
beside its accuracy property in Machine/SynthRef.lean. -/

namespace Sys2Proof

/-- The build-time parameters of one instance (R3 to R6). They are held in `Machine.State.cfg`, which no step changes, so that a
statement about every state is a statement about every instance. -/
structure Config where
  /-- FFT_SIZE, `L`: even, 2 to 8192 (R3). -/
  fftSize : Nat
  /-- SAMPLE_RATE, `FS`, in samples per second (R4). -/
  sampleRate : Nat
  /-- EPS, the positive floor of the logarithm (R5). -/
  eps : F64
  /-- SPEC_CAP_MAX, the bound of the spectral window's capacity (R6). -/
  specCapMax : Nat
  /-- F0_CAP_MAX, the bound of the f0 window's capacity (R6). -/
  f0CapMax : Nat
  deriving DecidableEq, Repr

namespace Config

/-- `H = L/2` (R3). -/
def half (c : Config) : Nat := c.fftSize / 2

/-- `NB = H + 1`, the number of spectral bins (R3). -/
def bins (c : Config) : Nat := c.half + 1

/-- The instance with every parameter at the spec's default (R3 to R6, the table of 00_scope section 4); EPS is 1e-12 by the bit
pattern of R26. -/
def standard : Config :=
  { fftSize := 1024, sampleRate := 8000, eps := 0x3D719799812DEA11#64, specCapMax := 64, f0CapMax := 64 }

/-- AP, the aperiodic-ratio vector, hardwired to the zero vector (R8). -/
def aperiodicRatio (c : Config) : List F64 := List.replicate c.bins 0

/-- The four buffers whose contents RESET leaves unspecified (R42 to R45, R320). -/
inductive Buffer where
  | specIn | specOut | irIn | irOut
  deriving DecidableEq, Repr

/-- FREE VALUE: element `i` of a buffer after the RESET numbered by the first argument: any F64, NaNs included, one independent
draw for each element and each RESET (R320, I9). -/
opaque bufferDraw : Nat → Buffer → Nat → F64

/-- FREE VALUE: the sign and the payload of a NaN that arithmetic puts on `audio_out` (I12), one draw for each such NaN. -/
opaque nanDraw : Nat → BitVec 53

/-- FREE VALUE: which of the two adjacent F64 values `pow10_impl` returns for an operand whose power of ten is no F64: `true` is
the upper one (R162: faithfully rounded; I5). -/
opaque pow10Up : F64 → Bool

/-- FREE VALUE: what `pow10_impl` returns for an operand that is not finite, of which R162 says nothing. -/
opaque pow10OfNonFinite : F64 → F64

end Config

end Sys2Proof
end

