-- ==== Sys2Proof/Machine/F64.lean ====
section
/-! DEFINITION. F64 arithmetic (spec/00_scope.md section 5, R11): IEEE 754 binary64, each operation computed exactly on integers
counted in units of 2^-1074, the least positive F64, and then rounded once, to nearest with ties to even. -/

namespace Sys2Proof.Fp

/-- The sign bit, bit 63. -/
def sign (x : F64) : Bool := x.msb

/-- Bits 62 to 0 as a number: exponent and fraction. For values that are no NaN it rises with the magnitude. -/
def mag (x : F64) : Nat := x.toNat % 2 ^ 63

/-- The magnitude bits of an infinity: exponent all ones, fraction zero. -/
def infMag : Nat := 0x7FF * 2 ^ 52

/-- `finite(v)`: neither NaN nor an infinity. -/
def finite (x : F64) : Bool := decide (mag x < infMag)

/-- NaN: exponent all ones and a fraction that is not zero. -/
def isNaN (x : F64) : Bool := decide (infMag < mag x)

/-- An infinity, of either sign. -/
def isInf (x : F64) : Bool := decide (mag x = infMag)

/-- The word with a given sign bit and given bits 62 to 0. -/
def pack (neg : Bool) (m : Nat) : F64 := BitVec.ofNat 64 ((if neg then 2 ^ 63 else 0) + m)

/-- +0.0. -/
def zero : F64 := 0x0000000000000000#64
/-- 0.5. -/
def half : F64 := 0x3FE0000000000000#64
/-- 1.0. -/
def one : F64 := 0x3FF0000000000000#64
/-- -1.0. -/
def negOne : F64 := 0xBFF0000000000000#64
/-- +infinity. -/
def posInf : F64 := 0x7FF0000000000000#64
/-- -infinity. -/
def negInf : F64 := 0xFFF0000000000000#64
/-- The NaN that stands for every NaN inside a computation. Where a NaN can be seen its bits are drawn (`nanOf`, I12). -/
def nan : F64 := 0x7FF8000000000000#64

/-- The NaN with the sign in bit 52 and the payload in bits 51 to 0; payload zero, which is an infinity's, stands for 2^51. Every
NaN pattern is the image of some word (I12). -/
def nanOf (b : BitVec 53) : F64 :=
  let payload := b.toNat % 2 ^ 52
  pack b.msb (infMag + if payload = 0 then 2 ^ 51 else payload)

/-- The units of 2^-1074 in a finite magnitude. -/
def unitsOfMag (m : Nat) : Nat :=
  if m / 2 ^ 52 = 0 then m else (2 ^ 52 + m % 2 ^ 52) * 2 ^ (m / 2 ^ 52 - 1)

/-- The units of 2^-1074 in the absolute value of a finite F64. -/
def units (x : F64) : Nat := unitsOfMag (mag x)

/-- A finite F64 as a signed number of units of 2^-1074. -/
def scaled (x : F64) : Int := if sign x then -(units x : Int) else (units x : Int)

/-- The number of units in 1.0: 2^1074. -/
def unitsPerOne : Nat := 2 ^ 1074

/-- `n / d` rounded to an integer, to nearest with ties to even (`d` positive). -/
def divNearestEven (n d : Nat) : Nat :=
  let q := n / d
  let r := n % d
  if d < 2 * r ∨ (2 * r = d ∧ q % 2 = 1) then q + 1 else q

/-- The number of low binary places that a magnitude of `q` whole units must give up to fit in 53 bits. -/
def spareBits (q : Nat) : Nat := if q < 2 ^ 53 then 0 else Nat.log2 q - 52

/-- The magnitude bits of `n / d` units, rounded to nearest with ties to even and not yet limited: with `s` places given up and
`m` what is left, `m · 2^s` units have the magnitude bits `s · 2^52 + m`, for subnormal, normal and carried-over `m` alike. -/
def roundMag (n d : Nat) : Nat :=
  let s := spareBits (n / d)
  s * 2 ^ 52 + divNearestEven n (d * 2 ^ s)

/-- The F64 nearest to `n / d` units (ties to even), with the given sign; past the largest finite F64, an infinity. -/
def round (neg : Bool) (n d : Nat) : F64 := pack neg (min (roundMag n d) infMag)

/-- The F64 nearest to a signed whole number of units; `zeroNeg` is the sign of a zero. -/
def ofScaled (zeroNeg : Bool) (k : Int) : F64 :=
  if k = 0 then pack zeroNeg 0 else round (decide (k < 0)) k.natAbs 1

/-- Sign change. -/
def neg (x : F64) : F64 := pack (!sign x) (mag x)

/-- F64 addition. -/
def add (a b : F64) : F64 :=
  if isNaN a || isNaN b then nan
  else if isInf a then (if isInf b && sign a != sign b then nan else a)
  else if isInf b then b
  else ofScaled (sign a && sign b) (scaled a + scaled b)

/-- F64 subtraction. -/
def sub (a b : F64) : F64 := add a (neg b)

/-- F64 multiplication. -/
def mul (a b : F64) : F64 :=
  let s := sign a != sign b
  if isNaN a || isNaN b then nan
  else if isInf a || isInf b then (if mag a = 0 ∨ mag b = 0 then nan else pack s infMag)
  else round s (units a * units b) unitsPerOne

/-- F64 division. -/
def div (a b : F64) : F64 :=
  let s := sign a != sign b
  if isNaN a || isNaN b then nan
  else if isInf a then (if isInf b then nan else pack s infMag)
  else if isInf b then pack s 0
  else if mag b = 0 then (if mag a = 0 then nan else pack s infMag)
  else round s (units a * unitsPerOne) (units b)

/-- `floor`: the greatest integer not above a finite value; an infinity or a NaN stays. -/
def floor (x : F64) : F64 :=
  if finite x then ofScaled (sign x) (scaled x / (unitsPerOne : Int) * (unitsPerOne : Int)) else x

/-- The F64 of a natural number (exact below 2^53: R103, R166). -/
def ofNat (n : Nat) : F64 := round false (n * unitsPerOne) 1

/-- The integer square root, found bit by bit from bit `k` down. -/
def isqrtBits (n : Nat) : Nat → Nat → Nat
  | 0, acc => acc
  | k + 1, acc =>
    let t := acc + 2 ^ k
    isqrtBits n k (if t * t ≤ n then t else acc)

/-- F64 `sqrt` (00_scope section 5). The root is taken with 54 spare binary places, and a last place that says whether it is
exact, so that rounding it once gives the correctly rounded root. No rule outside a `(real)` definition uses it. -/
def sqrt (x : F64) : F64 :=
  if isNaN x then nan
  else if mag x = 0 then x
  else if sign x then nan
  else if isInf x then x
  else
    let n := units x * 2 ^ 1074 * 2 ^ 108
    let r := isqrtBits n 1700 0
    round false (2 * r + if r * r = n then 0 else 1) (2 ^ 55)

/-- The order key of a value that is no NaN: the signed magnitude bits. Both zeros have key 0. -/
def key (x : F64) : Int := if sign x then -(mag x : Int) else (mag x : Int)

/-- `a < b`; false when either is NaN. -/
def lt (a b : F64) : Bool := !isNaN a && !isNaN b && decide (key a < key b)

/-- `a ≤ b`; false when either is NaN. -/
def le (a b : F64) : Bool := !isNaN a && !isNaN b && decide (key a ≤ key b)

/-- `a = b` as numbers; false when either is NaN. -/
def eq (a b : F64) : Bool := !isNaN a && !isNaN b && decide (key a = key b)

end Sys2Proof.Fp
end

