-- ==== Sys2Proof/Machine/State.lean ====
section
/-! DEFINITION. The state of the block (spec/10_state.md), as plain data. A host-visible register that only shows other state
(STATUS, WIN_LEN, XF_PROGRESS, PG_STATE, ACT_CFG, EXPORT_IR, ID0, ID1, EPS) is stored once, in what it shows, and read through the
views of Machine/Flags.lean and Machine/Ops.lean (log entry 9). -/

namespace Sys2Proof.Machine

/-- The error codes of R291; code 0, NONE, is the absence of a record. -/
inductive ErrCode where
  /-- 1: the CMD word matches no row of R93. -/
  | illegalCmd
  /-- 2: the command needs a running session. -/
  | notRunning
  /-- 3: the command needs a stopped session. -/
  | notStopped
  /-- 4: a job is in flight. -/
  | busy
  /-- 5: an f0, or a smoothed f0, not finite or not above 0. -/
  | invalidF0
  /-- 6: a spectral value the command does not take. -/
  | invalidSpectrum
  /-- 7: SHIFT_IN not finite. -/
  | invalidShift
  /-- 8: an impulse response with a value that is not finite. -/
  | invalidIr
  /-- 9: CONFIG's operands out of range. -/
  | invalidConfig
  deriving DecidableEq, Repr

/-- The pulse generator's edge state (R49). -/
inductive Edge where
  | low | high
  deriving DecidableEq, Repr

/-- FilterSlot: a filter, its impulse response and its delay line, newest sample first, `L` values each (R48). -/
structure FilterSlot where
  ir : List F64
  dl : List F64
  deriving DecidableEq, Repr

/-- The crossfader's occupancy (R47). -/
inductive Occupancy where
  /-- No filter. -/
  | empty
  /-- One active filter. -/
  | single (a : FilterSlot)
  /-- The outgoing filter, the incoming filter, and the progress. -/
  | dual (o n : FilterSlot) (p : F64)
  deriving DecidableEq, Repr

/-- A job in flight, with the operands latched when its command was accepted (R51, R234). -/
inductive Job where
  | frame (spec : List F64) (f0 : F64)
  | synth (spec : List F64) (f0 shift : F64)
  deriving DecidableEq, Repr

/-- The host port's response to an access (R23, R61, R62). -/
inductive Response where
  /-- A read answered OK with this data. -/
  | read (data : Word)
  /-- A write answered OK. -/
  | written
  /-- The access was refused: a bus error. -/
  | busError
  deriving DecidableEq, Repr

/-- One step of one agent (R20, R22, R98): what the world outside does to the block. -/
inductive Event where
  /-- The host reads `width` bytes at an address. -/
  | hostRead (addr : Addr) (width : Nat)
  /-- The host writes `width` bytes at an address; a write to CMD issues a command. -/
  | hostWrite (addr : Addr) (width : Nat) (data : Word)
  /-- SAMPLE_TICK, by the SampleClock. -/
  | sampleTick
  /-- XFADE_TICK, by the XfadeTimer. -/
  | xfadeTick
  /-- JOB_DONE, by the Engine. -/
  | jobDone
  /-- AUDIO_FAULT, by the AudioSink. -/
  | audioFault
  /-- RESET, by the environment. -/
  | reset
  deriving DecidableEq, Repr

/-- Why a step stops. -/
inductive Fault where
  /-- Raised by the step alone, when the schedule names JOB_DONE while no job is in flight: JOB_DONE is enabled exactly when
  STATUS.BUSY = 1 (R22, R235), so no execution takes that step. SAFE: the model stops where the spec has no step (log entry 3). -/
  | jobDoneNotEnabled
  deriving DecidableEq, Repr

/-- Why a step has no meaning. -/
inductive Refusal where
  /-- Raised by `exec`'s arm of an instruction that has no meaning yet. No arm does: every command has its meaning. SAFE. -/
  | notModelled (mnemonic : String)
  deriving DecidableEq, Repr

/-- The whole state. Every field names the rule that gives it; the last four are the model's own. -/
structure State where
  /-- CMD, the word last written (R27). -/
  cmd : Word
  /-- STATUS.RUNNING (R28, R302). -/
  running : Bool
  /-- STATUS.ERR and ERR_CODE: the recorded error, if any (R28, R291). -/
  err : Option ErrCode
  /-- STATUS.AUDIO_FAULT (R28, R300). -/
  audioFault : Bool
  /-- STATUS.DONE (R28). -/
  done : Bool
  /-- ACT_CFG.MODE (R29). -/
  mode : SmoothMode
  /-- ACT_CFG.SPEC_CAP (R29). -/
  specCap : Nat
  /-- ACT_CFG.F0_CAP (R29). -/
  f0Cap : Nat
  /-- ACT_XSTEP (R30). -/
  actXstep : F64
  /-- XSTEP_IN (R31). -/
  xstepIn : F64
  /-- F0_IN (R32). -/
  f0In : F64
  /-- SHIFT_IN (R33). -/
  shiftIn : F64
  /-- OSC_FREQ (R34). -/
  oscFreq : F64
  /-- OSC_PHASE (R39, R50). -/
  oscPhase : F64
  /-- SMO_F0 (R36). -/
  smoF0 : F64
  /-- AUDIO_OUT, the sample last driven on `audio_out` (R41). -/
  audioOut : F64
  /-- The edge state, shown in PG_STATE (R40, R49). -/
  edge : Edge
  /-- SPEC_IN, `NB` elements (R42). -/
  specIn : List F64
  /-- SPEC_OUT, `NB` elements (R43). -/
  specOut : List F64
  /-- IR_IN, `L` elements (R44). -/
  irIn : List F64
  /-- IR_OUT, `L` elements (R45). -/
  irOut : List F64
  /-- SW, the spectral window, oldest first (R46). -/
  sw : List (List F64)
  /-- FW, the f0 window, oldest first (R46). -/
  fw : List F64
  /-- The occupancy, shown in STATUS.OCC, XF_PROGRESS and EXPORT_IR (R28, R35, R37, R47). -/
  occ : Occupancy
  /-- The job latch, shown in STATUS.BUSY and STATUS.JOB (R28, R51). -/
  latch : Option Job
  /-- The instance's parameters, shown in ID0, ID1 and EPS (R3 to R6, R24 to R26). No step changes them (log entry 2). -/
  cfg : Config
  /-- THE MODEL'S OWN: the steps of the agents still to come, in the order in which they interleave (R2, R22; log entry 1). -/
  schedule : List Event
  /-- THE MODEL'S OWN: the host port's last response, an output (R23; log entry 10). -/
  response : Option Response
  /-- THE MODEL'S OWN: how many times free values have been drawn (log entries 4 and 5). -/
  draws : Nat
  deriving DecidableEq, Repr

/-- A buffer of `n` elements as RESET leaves it: every element a draw (R320). -/
def drawnBuffer (draw : Nat) (b : Config.Buffer) (n : Nat) : List F64 :=
  (List.range n).map (Config.bufferDraw draw b)

/-- The state after a RESET of the instance `c` (R320, 10_state section 5), with the draws numbered `draw`. -/
def State.resetOf (c : Config) (draw : Nat) : State :=
  { cmd := 0#64
    running := false
    err := none
    audioFault := false
    done := false
    mode := .sliding
    specCap := 2
    f0Cap := 50
    actXstep := 0x3F847AE147AE147B#64
    xstepIn := 0x3F847AE147AE147B#64
    f0In := Fp.zero
    shiftIn := Fp.zero
    oscFreq := Fp.zero
    oscPhase := Fp.zero
    smoF0 := Fp.zero
    audioOut := Fp.zero
    edge := .low
    specIn := drawnBuffer draw .specIn c.bins
    specOut := drawnBuffer draw .specOut c.bins
    irIn := drawnBuffer draw .irIn c.fftSize
    irOut := drawnBuffer draw .irOut c.fftSize
    sw := []
    fw := []
    occ := .empty
    latch := none
    cfg := c
    schedule := []
    response := none
    draws := draw }

/-- The machine right after power-up, which is a RESET (R322), on the instance with the spec's default parameters (log entry 2). -/
def State.reset : State := State.resetOf Config.standard 0

/-- The outcome of one step of this block. -/
abbrev Result := Host.Outcome State Fault Refusal

end Sys2Proof.Machine
end

