-- ==== Sys2Proof/Machine/Flags.lean ====
section
/-! DEFINITION. The flag bits: STATUS, its fields, and the small status registers that show internal state (spec/10_state.md R28, R29,
R35, R38, R40; spec/60_exceptions.md R291). -/

namespace Sys2Proof.Machine

/-- The code of an error (R291). -/
def ErrCode.code : ErrCode → BitVec 8
  | .illegalCmd => 1#8
  | .notRunning => 2#8
  | .notStopped => 3#8
  | .busy => 4#8
  | .invalidF0 => 5#8
  | .invalidSpectrum => 6#8
  | .invalidShift => 7#8
  | .invalidIr => 8#8
  | .invalidConfig => 9#8

/-- STATUS.BUSY: a job is in flight, that is, the job latch is not `none` (R28, R51, R233). -/
def State.busy (s : State) : Bool := s.latch.isSome

/-- STATUS.ERR (R28). -/
def State.errFlag (s : State) : Bool := s.err.isSome

/-- STATUS.ERR_CODE: 0 where no error is recorded (R28, R291). -/
def State.errCode (s : State) : BitVec 8 :=
  match s.err with
  | none => 0#8
  | some e => e.code

/-- STATUS.OCC: 0 Empty, 1 Single, 2 Dual (R28, R47). -/
def State.occField (s : State) : BitVec 2 :=
  match s.occ with
  | .empty => 0#2
  | .single _ => 1#2
  | .dual _ _ _ => 2#2

/-- STATUS.JOB: 0 none, 1 FRAME, 2 SYNTH (R28, R51). -/
def State.jobField (s : State) : BitVec 2 :=
  match s.latch with
  | none => 0#2
  | some (.frame _ _) => 1#2
  | some (.synth _ _ _) => 2#2

/-- STATUS, from bit 63 down: reserved, JOB, OCC, ERR_CODE, reserved, DONE, AUDIO_FAULT, ERR, BUSY, RUNNING (R28). -/
def State.statusWord (s : State) : Word :=
  0#44 ++ s.jobField ++ s.occField ++ s.errCode ++ 0#3 ++ BitVec.ofBool s.done ++ BitVec.ofBool s.audioFault
    ++ BitVec.ofBool s.errFlag ++ BitVec.ofBool s.busy ++ BitVec.ofBool s.running

/-- ACT_CFG: F0_CAP in bits 47:32, SPEC_CAP in 31:16, MODE in bit 8, all others 0 (R29). -/
def State.actCfgWord (s : State) : Word :=
  0#16 ++ BitVec.ofNat 16 s.f0Cap ++ BitVec.ofNat 16 s.specCap ++ 0#7 ++ BitVec.ofBool s.mode.bit ++ 0#8

/-- WIN_LEN: len(FW) in bits 31:16, len(SW) in bits 15:0 (R38). -/
def State.winLenWord (s : State) : Word := 0#32 ++ BitVec.ofNat 16 s.fw.length ++ BitVec.ofNat 16 s.sw.length

/-- XF_PROGRESS: the progress when Dual, +0.0 otherwise (R35). -/
def State.xfProgress (s : State) : F64 :=
  match s.occ with
  | .dual _ _ p => p
  | .empty | .single _ => Fp.zero

/-- PG_STATE: 0 Low, 1 High (R40). -/
def State.pgStateWord (s : State) : Word :=
  match s.edge with
  | .low => 0#64
  | .high => 1#64

/-- ID0: SAMPLE_RATE in bits 63:32, FFT_SIZE in bits 31:0 (R24). -/
def State.id0Word (s : State) : Word := BitVec.ofNat 32 s.cfg.sampleRate ++ BitVec.ofNat 32 s.cfg.fftSize

/-- ID1: F0_CAP_MAX in bits 31:16, SPEC_CAP_MAX in bits 15:0 (R25). -/
def State.id1Word (s : State) : Word := 0#32 ++ BitVec.ofNat 16 s.cfg.f0CapMax ++ BitVec.ofNat 16 s.cfg.specCapMax

end Sys2Proof.Machine
end

