-- ==== Sys2Proof/Machine/Operands.lean ====
section
/-! DEFINITION. The operand checks of the commands (spec/44_session_commands.md R222, R225, R227, R229, R231; spec/40_synthesizer.md
R121). -/

namespace Sys2Proof.Machine

/-- An f0 a command takes: finite and above 0 (R225, R227, R231). -/
def validF0 (f : F64) : Bool := Fp.finite f && Fp.lt Fp.zero f

/-- Every value is finite: the log-domain spectrum of FRAME and PUSH, a smoothed spectrum, an impulse response (R225, R229, R235). -/
def allFinite (xs : List F64) : Bool := xs.all Fp.finite

/-- A linear power spectrum that SYNTH takes: no value is NaN or +infinity. Negative values and -infinity are legal (R121, R227). -/
def validPowerSpectrum (xs : List F64) : Bool := xs.all fun x => !Fp.isNaN x && decide (x ≠ Fp.posInf)

/-- A fractional time shift SYNTH takes: finite (R121, R227). -/
def validShift (x : F64) : Bool := Fp.finite x

/-- A crossfade step CONFIG takes: finite, above 0 and at most 1 (R222). -/
def validXstep (x : F64) : Bool := Fp.finite x && Fp.lt Fp.zero x && Fp.le x Fp.one

/-- A window capacity CONFIG takes: from 1 to the instance's bound (R222). -/
def validCapacity (n bound : Nat) : Bool := decide (1 ≤ n) && decide (n ≤ bound)

end Sys2Proof.Machine
end

