-- ==== Sys2Proof/Machine/Ops.lean ====
section
/-! DEFINITION. The operations the commands share: raising an error (the block's one exception), the return from it, the gates of
command issue, and the operations over the buffers. -/

namespace Sys2Proof.Machine

/-- TAKING AN EXCEPTION: the error action (R292). The code is recorded if no error is; nothing else changes: nothing is saved, there
is no vector and no mode change (R297), and a later error keeps the first code (R298). -/
def raiseError (e : ErrCode) (s : State) : State := { s with err := some (s.err.getD e) }

/-- THE RETURN from an error, CLRERR's effect (R232, R297): ERR, ERR_CODE and AUDIO_FAULT are cleared. -/
def clearErrors (s : State) : State := { s with err := none, audioFault := false }

/-- The session state a command needs (R220 step 4). -/
inductive SessionNeed where
  | any | running | stopped
  deriving DecidableEq, Repr

/-- Steps 3 and 4 of R220: the first gate that refuses the command, if any. `needsIdle` says that the command is refused while a job
is in flight. BUSY comes before the session gates (R294). -/
def gateError (needsIdle : Bool) (need : SessionNeed) (s : State) : Option ErrCode :=
  if needsIdle && s.busy then some .busy
  else
    match need with
    | .any => none
    | .running => if s.running then none else some .notRunning
    | .stopped => if s.running then some .notStopped else none

/-- How a command that may be refused ends: with its effect, or with the error action and no other effect (R292, R293). -/
def settle (s : State) : Except ErrCode State → Result
  | .ok t => .next t
  | .error e => .next (raiseError e s)

/-- Steps 3 to 5 of R220: the gates, then the command's own rule. -/
def issueGated (needsIdle : Bool) (need : SessionNeed) (effect : State → Except ErrCode State) (s : State) : Result :=
  match gateError needsIdle need s with
  | some e => settle s (.error e)
  | none => settle s (effect s)

/-- EXPORT_IR: the impulse response of the newest filter, zeros when there is none (R37). -/
def State.exportIr (s : State) : List F64 :=
  match s.occ with
  | .empty => List.replicate s.cfg.fftSize Fp.zero
  | .single a => a.ir
  | .dual _ n _ => n.ir

/-- Element `i` of a buffer. -/
def element (xs : List F64) (i : Nat) : F64 := xs.getD i Fp.zero

/-- The last `n` elements of a list; all of a shorter one (R164). -/
def lastN {α : Type} (n : Nat) (xs : List α) : List α := xs.drop (xs.length - n)

/-- START's effect (R221). WIN_LEN and EXPORT_IR follow from the windows and the occupancy. -/
def startSession (s : State) : State :=
  { s with running := true, sw := [], fw := [], oscPhase := Fp.zero, oscFreq := Fp.zero, edge := .low, occ := .empty }

/-- STOP's effect (R223): any job is cancelled, and a running session is torn down. -/
def stopSession (s : State) : State :=
  { s with
    latch := none
    running := false
    occ := if s.running then .empty else s.occ
    edge := if s.running then .low else s.edge }

/-- CONFIG's effect on legal operands (R222). -/
def setConfig (mode : SmoothMode) (scap fcap : Nat) (x : F64) (s : State) : State :=
  { s with mode := mode, specCap := scap, f0Cap := fcap, actXstep := x }

/-- A job enters the latch: BUSY and JOB show it, and DONE is cleared (R226, R227). -/
def latchJob (j : Job) (s : State) : State := { s with latch := some j, done := false }

/-- A job leaves the latch with its result: IR_OUT is written, BUSY and JOB are cleared, DONE is set (R235). -/
def finishJob (ir : List F64) (s : State) : State := { s with irOut := ir, latch := none, done := true }

/-- OSC_FREQ is written; the phase is kept (R231, R235). -/
def setOscFreq (f : F64) (s : State) : State := { s with oscFreq := f }

end Sys2Proof.Machine
end

