-- ==== Sys2Proof/Machine/Crossfader.lean ====
section
/-! DEFINITION. dual_filter_crossfader (spec/43_crossfader.md): Install, the filters, the mix, XFADE_TICK and the INSTALL command. -/

namespace Sys2Proof.Machine

/-- `new(ir)`: a filter with an all-zero delay line (R192). -/
def newFilter (c : Config) (ir : List F64) : FilterSlot := { ir := ir, dl := List.replicate c.fftSize Fp.zero }

/-- The occupancy after Install of a filter (R190, R191): the newest filter comes in, the one that was newest goes out, and an older
one is discarded. -/
def installInto (f : FilterSlot) : Occupancy → Occupancy
  | .empty => .single f
  | .single a => .dual a f Fp.zero
  | .dual _ n _ => .dual n f Fp.zero

/-- Install (R191). EXPORT_IR follows from the occupancy. -/
def installFilter (ir : List F64) (s : State) : State := { s with occ := installInto (newFilter s.cfg ir) s.occ }

/-- The incoming gain, `p × p` (R193). -/
def gainIn (p : F64) : F64 := Fp.mul p p

/-- The outgoing gain, `1.0 - p × p` (R193). -/
def gainOut (p : F64) : F64 := Fp.sub Fp.one (gainIn p)

/-- The delay line with a new sample at its head, the oldest dropped (R194). -/
def shiftDelay (c : Config) (x : F64) (dl : List F64) : List F64 := x :: dl.take (c.fftSize - 1)

/-- The left fold, from +0.0 and by ascending tap, of `acc + ir[k] × dl[k]` (R194). -/
def firSum (ir dl : List F64) : F64 := (ir.zip dl).foldl (fun acc t => Fp.add acc (Fp.mul t.1 t.2)) Fp.zero

/-- The filter after `fstep` (R194). -/
def filterNext (c : Config) (x : F64) (f : FilterSlot) : FilterSlot := { f with dl := shiftDelay c x f.dl }

/-- The output of `fstep` (R194), read from the filter after its delay line has moved. -/
def filterOutput (f : FilterSlot) : F64 := firSum f.ir f.dl

/-- Every filter present takes the same input sample (R194, R276). -/
def stepFilters (c : Config) (x : F64) : Occupancy → Occupancy
  | .empty => .empty
  | .single a => .single (filterNext c x a)
  | .dual o n p => .dual (filterNext c x o) (filterNext c x n) p

/-- `mix`, over filters that have been stepped (R195). -/
def mix : Occupancy → F64
  | .empty => Fp.zero
  | .single a => filterOutput a
  | .dual o n p => Fp.add (Fp.mul (gainOut p) (filterOutput o)) (Fp.mul (gainIn p) (filterOutput n))

/-- The occupancy after a crossfade tick of a running session (R197). DESIGN CHOICE (log entry 25): for some steps the outgoing filter's
gain before its last tick is above the bound R196 gives it, and the model follows R193 and R197. -/
def advanceCrossfade (step : F64) : Occupancy → Occupancy
  | .empty => .empty
  | .single a => .single a
  | .dual o n p => if Fp.le Fp.one (Fp.add p step) then .single n else .dual o n (Fp.add p step)

/-- XFADE_TICK (R197): no state changes while stopped. -/
def xfadeTick (s : State) : State :=
  { s with occ := if s.running then advanceCrossfade s.actXstep s.occ else s.occ }

/-- INSTALL's check and effect (R229). -/
def installOperand (s : State) : Except ErrCode State :=
  if allFinite s.irIn = false then .error .invalidIr else .ok (installFilter s.irIn s)

/-- INSTALL (R229): it needs a running block that is not busy. -/
def execInstall (s : State) : Result := issueGated true .running installOperand s

end Sys2Proof.Machine
end

