-- ==== Sys2Proof/Machine/Session.lean ====
section
/-! DEFINITION. The session commands that start no job (spec/44_session_commands.md): NOP, START, STOP, CONFIG, SETFREQ, CLRERR. -/

namespace Sys2Proof.Machine

/-- NOP (R224): no effect beyond the store of its word in CMD, which the host port has done. -/
def execNop (s : State) : Result := .next s

/-- START (R221): it needs a stopped block that is not busy. -/
def execStart (s : State) : Result := issueGated true .stopped (fun t => .ok (startSession t)) s

/-- STOP (R223): legal in every state. -/
def execStop (s : State) : Result := .next (stopSession s)

/-- CONFIG's check and effect (R222): the step is XSTEP_IN. -/
def configure (mode : SmoothMode) (scap fcap : Nat) (s : State) : Except ErrCode State :=
  if validCapacity scap s.cfg.specCapMax && validCapacity fcap s.cfg.f0CapMax && validXstep s.xstepIn then
    .ok (setConfig mode scap fcap s.xstepIn s)
  else .error .invalidConfig

/-- CONFIG (R222): it needs a stopped block that is not busy. -/
def execConfig (mode : SmoothMode) (scap fcap : Nat) (s : State) : Result :=
  issueGated true .stopped (configure mode scap fcap) s

/-- SETFREQ's check and effect (R231). -/
def setFrequency (s : State) : Except ErrCode State :=
  if validF0 s.f0In = false then .error .invalidF0 else .ok (setOscFreq s.f0In s)

/-- SETFREQ (R231): it needs a running block that is not busy. -/
def execSetfreq (s : State) : Result := issueGated true .running setFrequency s

/-- CLRERR (R232): legal in every state. -/
def execClrerr (s : State) : Result := .next (clearErrors s)

end Sys2Proof.Machine
end

