-- ==== Sys2Proof/Machine/Smoother.lean ====
section
/-! DEFINITION. temporal_frame_smoother (spec/41_smoother.md): the power of ten, the mean, SmoothPush, and the acceptance step of
FRAME and PUSH (spec/44_session_commands.md R225). -/

namespace Sys2Proof.Machine

/-- Two numbers that stand to each other as `u` units of 2^-1074 stand to `10^x`, for `x` = `k` units. With `|k| / 2^1074 = p / q`
in lowest terms, `u / 2^1074` against `10^(±p/q)` is `u^q` against `10^(±p) · (2^1074)^q`, all in natural numbers. -/
def pow10Sides (u : Nat) (k : Int) : Nat × Nat :=
  let g := Nat.gcd k.natAbs Fp.unitsPerOne
  let p := k.natAbs / g
  let q := Fp.unitsPerOne / g
  if 0 ≤ k then (u ^ q, 10 ^ p * Fp.unitsPerOne ^ q) else (u ^ q * 10 ^ p, Fp.unitsPerOne ^ q)

/-- The finite F64 with magnitude bits `m` is at most `10^x`. -/
def atMostPow10 (m : Nat) (k : Int) : Bool :=
  decide (m < Fp.infMag) && decide ((pow10Sides (Fp.unitsOfMag m) k).1 ≤ (pow10Sides (Fp.unitsOfMag m) k).2)

/-- The F64 with magnitude bits `m` is `10^x`. -/
def isPow10 (m : Nat) (k : Int) : Bool :=
  decide ((pow10Sides (Fp.unitsOfMag m) k).1 = (pow10Sides (Fp.unitsOfMag m) k).2)

/-- The greatest number that a downward-closed test admits, among `acc` and the numbers of `n` more binary places above it, found
place by place. -/
def greatestAdmitted (test : Nat → Bool) : Nat → Nat → Nat
  | 0, acc => acc
  | n + 1, acc => greatestAdmitted test n (if test (acc + 2 ^ n) then acc + 2 ^ n else acc)

/-- The magnitude bits of the greatest finite F64 that is at most `10^x`. -/
def pow10Floor (k : Int) : Nat := greatestAdmitted (fun m => atMostPow10 m k) 63 0

/-- The lower of the two results R162 allows: `10^x` itself where it is an F64, else the F64 below it, and +infinity where `10^x`
exceeds the largest finite F64. -/
def pow10Lower (k : Int) : Nat :=
  if pow10Floor k + 1 = Fp.infMag ∧ isPow10 (pow10Floor k) k = false then Fp.infMag else pow10Floor k

/-- The upper of the two results R162 allows: `10^x` itself where it is an F64, else the F64 above it; below the smallest normal F64
the result stays below it. -/
def pow10Upper (k : Int) : Nat :=
  if isPow10 (pow10Floor k) k = true ∨ pow10Floor k + 1 = 2 ^ 52 then pow10Floor k else pow10Floor k + 1

/-- `pow10_impl(x)` (R162, Pow10Accurate): `10^x` where that is an F64; otherwise one of its two neighbours, which one being a free
value (`Config.pow10Up`). The two range tests, at 309 and -324, and the test for whole operands only spare work: what they answer is
what the last case answers. R162 does not say what an operand that is not finite gives; no command passes one (R225). -/
def pow10 (x : F64) : F64 :=
  let k := Fp.scaled x
  if Fp.finite x = false then Config.pow10OfNonFinite x
  else if 309 * (Fp.unitsPerOne : Int) ≤ k then Fp.posInf
  else if k ≤ -324 * (Fp.unitsPerOne : Int) then
    match Config.pow10Up x with
    | true => Fp.pack false 1
    | false => Fp.zero
  else if k % (Fp.unitsPerOne : Int) = 0 ∧ isPow10 (pow10Floor k) k = true then Fp.pack false (pow10Floor k)
  else
    match Config.pow10Up x with
    | true => Fp.pack false (pow10Upper k)
    | false => Fp.pack false (pow10Lower k)

/-- `mean(v)`: the sum, oldest first from +0.0, divided by the F64 of the length (R166). -/
def mean (v : List F64) : F64 := Fp.div (v.foldl Fp.add Fp.zero) (Fp.ofNat v.length)

/-- What SmoothPush returns: the tentative windows and the smoothed pair (R160). -/
structure Smoothed where
  sw : List (List F64)
  fw : List F64
  spec : List F64
  f0 : F64
  deriving DecidableEq, Repr

/-- A window after a push: Truncating keeps the pushed element alone (R163), Sliding the last `cap` elements (R164). -/
def pushWindow {α : Type} (mode : SmoothMode) (cap : Nat) (window : List α) (x : α) : List α :=
  match mode with
  | .truncating => [x]
  | .sliding => lastN cap (window ++ [x])

/-- The element-wise mean over a spectral window, for the `n` bins (R165, R166). -/
def meanSpectrum (n : Nat) (window : List (List F64)) : List F64 :=
  (List.range n).map fun i => mean (window.map fun w => element w i)

/-- SmoothPush (R160, R165): it writes nothing. -/
def smoothPush (s : State) (x : List F64) (f0 : F64) : Smoothed :=
  let sw := pushWindow s.mode s.specCap s.sw (x.map pow10)
  let fw := pushWindow s.mode s.f0Cap s.fw f0
  { sw := sw, fw := fw, spec := meanSpectrum s.cfg.bins sw, f0 := mean fw }

/-- The commit of an accepted push (R165); WIN_LEN follows from the windows. -/
def commitSmoothed (r : Smoothed) (s : State) : State :=
  { s with sw := r.sw, fw := r.fw, specOut := r.spec, smoF0 := r.f0 }

/-- Accept, the acceptance step of FRAME and PUSH: four checks in order, then the commit (R225). -/
def accept (s : State) : Except ErrCode State :=
  let r := smoothPush s s.specIn s.f0In
  if validF0 s.f0In = false then .error .invalidF0
  else if allFinite s.specIn = false then .error .invalidSpectrum
  else if validF0 r.f0 = false then .error .invalidF0
  else if allFinite r.spec = false then .error .invalidSpectrum
  else .ok (commitSmoothed r s)

/-- PUSH (R228): Accept and nothing else; it needs a running block that is not busy. -/
def execPush (s : State) : Result := issueGated true .running accept s

end Sys2Proof.Machine
end

