-- ==== Sys2Proof/WellFormed.lean ====
section
/-! DEFINITION. Which commands have a command word, and which parameters make an instance. -/

namespace Sys2Proof

/-- The operands fit their fields: SCAP and FCAP have 16 bits (R91). The legal values of a capacity are the command's own check,
not this one (R94). -/
def Instr.wf : Instr → Bool
  | .config _ scap fcap => decide (scap < 2 ^ 16) && decide (fcap < 2 ^ 16)
  | .nop | .start | .stop | .frame _ | .synth | .push | .install | .setfreq | .clrerr => true

/-- The parameters are within R3 to R6: `L` even and 2 to 8192, `FS` 1 to 2^32 - 1, EPS a positive finite F64, the capacity bounds 1
to 65535. -/
def Config.wf (c : Config) : Bool :=
  decide (c.fftSize % 2 = 0) && decide (2 ≤ c.fftSize) && decide (c.fftSize ≤ 8192)
    && decide (1 ≤ c.sampleRate) && decide (c.sampleRate < 2 ^ 32)
    && Fp.finite c.eps && Fp.lt Fp.zero c.eps
    && decide (1 ≤ c.specCapMax) && decide (c.specCapMax < 2 ^ 16)
    && decide (1 ≤ c.f0CapMax) && decide (c.f0CapMax < 2 ^ 16)

end Sys2Proof
end

