-- ==== Sys2Proof/Machine/SynthRef.lean ====
section
/-! DEFINITION. The spec's `(real)` definitions, in exact real and complex arithmetic: the reference value of Synthesize, step by step
(spec/40_synthesizer.md R122 to R129), the accuracy properties SynthAccurate (R131), Pow10Accurate (spec/41_smoother.md R162) and
correct rounding (spec/00_scope.md section 5), and the free value `synth_impl`, any implementation with SynthAccurate. No step
computes with the reference: it only says which implementations there are. -/

namespace Sys2Proof.SynthRef

open Complex in
/-- R129: `DFT(x)[k] = Σ x[n] · e^(-2πi·k·n/L)`, unnormalised. -/
noncomputable def dft (L : ℕ) (x : ℕ → ℂ) (k : ℕ) : ℂ :=
  ∑ n ∈ Finset.range L, x n * exp (-(2 * Real.pi * I * k * n / L))

/-- The real number a finite F64 stands for. -/
noncomputable def toReal (x : F64) : ℝ := (Fp.scaled x : ℝ) / (Fp.unitsPerOne : ℝ)

/-- `max(spec[i] · (1 - AP[i]), 0)` of R122: -infinity counts as 0 does. -/
noncomputable def power (c : Config) (spec : List F64) (i : ℕ) : ℝ :=
  if Machine.element spec i = Fp.negInf then 0
  else max (toReal (Machine.element spec i) * (1 - toReal (Machine.element c.aperiodicRatio i))) 0

/-- Step a, half-spectrum log magnitude (R122). -/
noncomputable def logHalf (c : Config) (spec : List F64) (i : ℕ) : ℝ :=
  Real.log (power c spec i + toReal c.eps) / 2

/-- Step b, the mirror (R123). -/
noncomputable def logFull (c : Config) (spec : List F64) (i : ℕ) : ℝ :=
  if i ≤ c.half then logHalf c spec i else logHalf c spec (c.fftSize - i)

/-- Step c, the cepstrum (R124). -/
noncomputable def cepstrum (c : Config) (spec : List F64) : ℕ → ℂ :=
  dft c.fftSize fun n => (logFull c spec n : ℂ)

/-- Step c, the minimum-phase folding (R124). -/
noncomputable def folded (c : Config) (spec : List F64) (k : ℕ) : ℂ :=
  if k = 0 ∨ k = c.half then starRingEnd ℂ (cepstrum c spec k)
  else if k < c.half then 2 * starRingEnd ℂ (cepstrum c spec k)
  else 0

/-- Step d, the second forward transform (R125). -/
noncomputable def minPhaseLog (c : Config) (spec : List F64) : ℕ → ℂ := dft c.fftSize (folded c spec)

/-- Step d, the minimum-phase half-spectrum (R125). -/
noncomputable def halfSpectrum (c : Config) (spec : List F64) (i : ℕ) : ℂ :=
  let re := (minPhaseLog c spec i).re / c.fftSize
  let im := (minPhaseLog c spec i).im / c.fftSize
  Real.exp re * ((Real.cos im : ℂ) + Complex.I * (Real.sin im : ℂ))

/-- Step e, the fractional time shift, with `s = √(1 - cos²θ)` taken literally for every angle (R126). -/
noncomputable def shifted (c : Config) (spec : List F64) (shift : F64) (i : ℕ) : ℂ :=
  let coef := 2 * Real.pi * toReal shift * c.sampleRate / c.fftSize
  let cosine := Real.cos (coef * i)
  let sine := Real.sqrt (1 - cosine ^ 2)
  let z := halfSpectrum c spec i
  ⟨z.re * cosine + z.im * sine, z.im * cosine - z.re * sine⟩

/-- Step f, the full spectrum by conjugate symmetry (R127). -/
noncomputable def fullSpectrum (c : Config) (spec : List F64) (shift : F64) (k : ℕ) : ℂ :=
  if k ≤ c.half then shifted c spec shift k else starRingEnd ℂ (shifted c spec shift (c.fftSize - k))

open Complex in
/-- Step f, the inverse transform times `L`: the real part of `Σ X[k] · e^(+2πi·k·n/L)` (R127). -/
noncomputable def timeSignal (c : Config) (spec : List F64) (shift : F64) (n : ℕ) : ℝ :=
  (∑ k ∈ Finset.range c.fftSize, fullSpectrum c spec shift k * exp (2 * Real.pi * I * k * n / c.fftSize)).re

/-- Step f, fftshift (R127). -/
noncomputable def centred (c : Config) (spec : List F64) (shift : F64) (n : ℕ) : ℝ :=
  timeSignal c spec shift ((n + c.half) % c.fftSize)

/-- `Synth_ref(spec, f0, shift)`: step g, the energy normalisation (R128). No other step follows (R130). -/
noncomputable def synthRef (c : Config) (spec : List F64) (f0 shift : F64) (n : ℕ) : ℝ :=
  centred c spec shift n * Real.sqrt (c.sampleRate / toReal f0) / c.fftSize

/-- The greatest magnitude of the first `L` samples (R131). -/
noncomputable def peak (L : ℕ) (r : ℕ → ℝ) : ℝ := ((Finset.range L).sup fun n => Real.nnabs (r n) : NNReal)

/-- The operands Synthesize is invoked with (R121), of an instance and a spectrum with one value for each bin (R120). -/
def ValidOperands (c : Config) (spec : List F64) (f0 shift : F64) : Prop :=
  c.wf = true ∧ spec.length = c.bins ∧ Machine.validF0 f0 = true ∧ Machine.validPowerSpectrum spec = true
    ∧ Machine.validShift shift = true

/-- **SynthAccurate** (R131), of an implementation that gives sample `n` of the result, with tolerance SYNTH_TOL (R9): where the peak
of the reference is within [2^-1000, 2^1000], every sample is finite and within `tol` times the peak of the reference. DESIGN CHOICE (log entry 23): an f0 so small that `FS / f0`
overflows, where R135, R227 and R299 say that a result can be not finite, is no exception, since R131's test of the peak is met there for
ordinary spectra. -/
def SynthAccurate (tol : ℝ) (impl : Config → List F64 → F64 → F64 → ℕ → F64) : Prop :=
  ∀ c spec f0 shift, ValidOperands c spec f0 shift →
    (2 : ℝ) ^ (-1000 : ℤ) ≤ peak c.fftSize (synthRef c spec f0 shift) →
    peak c.fftSize (synthRef c spec f0 shift) ≤ (2 : ℝ) ^ (1000 : ℤ) →
    ∀ n < c.fftSize, Fp.finite (impl c spec f0 shift n) = true
      ∧ |toReal (impl c spec f0 shift n) - synthRef c spec f0 shift n| ≤ tol * peak c.fftSize (synthRef c spec f0 shift)

/-- Every sample is within the peak. -/
theorem abs_le_peak {L n : ℕ} (r : ℕ → ℝ) (h : n < L) : |r n| ≤ peak L r := by
  have h2 : Real.nnabs (r n) ≤ (Finset.range L).sup fun n => Real.nnabs (r n) :=
    Finset.le_sup (f := fun n => Real.nnabs (r n)) (Finset.mem_range.mpr h)
  have h3 := NNReal.coe_le_coe.mpr h2
  simpa [peak] using h3

/-- The sample-wise zero implementation is accurate with tolerance 1, so the property can be met. -/
theorem silent_accurate : SynthAccurate 1 (fun _ _ _ _ _ => Fp.zero) := by
  intro c spec f0 shift _ _ _ n hn
  refine ⟨rfl, ?_⟩
  have h0 : toReal Fp.zero = 0 := by
    have h1 : Fp.scaled Fp.zero = 0 := by decide
    rw [toReal, h1, Int.cast_zero, zero_div]
  rw [h0, zero_sub, abs_neg, one_mul]
  exact abs_le_peak _ hn

/-- An implementation of the synthesizer (R10, R131): sample `n` of the result, a function of the operands and the instance constants
alone, accurate for some value of the OPEN parameter SYNTH_TOL (R9). -/
structure SynthUnit where
  impl : Config → List F64 → F64 → F64 → Nat → F64
  accurate : ∃ tol : ℝ, 0 ≤ tol ∧ SynthAccurate tol impl

/-- There are implementations: the silent one shows it. It is no value of the block's. -/
def silentUnit : SynthUnit := ⟨fun _ _ _ _ _ => Fp.zero, 1, zero_le_one, silent_accurate⟩

/-- FREE VALUE: the instance's implementation, `synth_impl`: any that there is (R131; I5, I11). Outside the range of SynthAccurate
its samples are any values. -/
opaque synthUnit [Inhabited SynthUnit] : SynthUnit

/-- Sample `n` of `synth_impl(spec, f0, shift)`. -/
def synthSample : Config → List F64 → F64 → F64 → Nat → F64 := (@synthUnit ⟨silentUnit⟩).impl

/-- SYNTH_TOL, the OPEN accuracy bound (R9, D53): a tolerance the implementation meets. Nothing says how large it is. -/
noncomputable def synthTol : ℝ := (@synthUnit ⟨silentUnit⟩).accurate.choose

/-- No finite F64 lies strictly between `v` and `r`, on `v`'s side of `r`: `v` is `r` or adjacent to it (R162). -/
def Adjacent (r : ℝ) (v : F64) : Prop :=
  (toReal v ≤ r ∧ ∀ w, Fp.finite w = true → toReal w ≤ r → toReal w ≤ toReal v)
    ∨ (r ≤ toReal v ∧ ∀ w, Fp.finite w = true → r ≤ toReal w → toReal v ≤ toReal w)

/-- **Pow10Accurate** at one operand (R162): +infinity where `10^x` exceeds the largest finite F64; otherwise a finite value, never
below 0, equal or adjacent to `10^x`, equal to it where it is an F64, and below 2^-1022 where `10^x` is. -/
def Pow10AccurateAt (x v : F64) : Prop :=
  let r : ℝ := (10 : ℝ) ^ toReal x
  ((∀ w, Fp.finite w = true → toReal w < r) → v = Fp.posInf)
    ∧ ((∃ w, Fp.finite w = true ∧ r ≤ toReal w) → Fp.finite v = true ∧ Fp.sign v = false ∧ Adjacent r v)
    ∧ (∀ w, Fp.finite w = true → toReal w = r → toReal v = r)
    ∧ (r < (2 : ℝ) ^ (-1022 : ℤ) → toReal v < (2 : ℝ) ^ (-1022 : ℤ))

/-- `v` is the real number `r` rounded to nearest with ties to even (00_scope section 5): the finite F64 closest to `r`, with an even
last fraction bit where another is as close; and an infinity of `r`'s sign from half a unit past the largest finite F64 on. -/
def CorrectlyRounded (r : ℝ) (v : F64) : Prop :=
  if |r| < (2 : ℝ) ^ (1024 : ℤ) - (2 : ℝ) ^ (970 : ℤ) then
    Fp.finite v = true
      ∧ (∀ w, Fp.finite w = true → |toReal v - r| ≤ |toReal w - r|)
      ∧ (∀ w, Fp.finite w = true → |toReal w - r| = |toReal v - r| → toReal w ≠ toReal v → v.getLsbD 0 = false)
  else v = if 0 < r then Fp.posInf else Fp.negInf

end Sys2Proof.SynthRef
end

