-- ==== Sys2Proof/Machine/Synthesizer.lean ====
section
/-! DEFINITION. periodic_excitation_synth (spec/40_synthesizer.md): the value Synthesize returns, and the commands that start a job
(spec/44_session_commands.md R226, R227). The reference value it is accurate to is in Machine/SynthRef.lean. -/

namespace Sys2Proof.Machine

/-- `Synthesize(spec, f0, shift)` (R120, R131): `synth_impl`, a free value, exactly `L` values, a function of the operands and the instance's
constants alone. It reads and writes no state (R132). -/
def synthesize (c : Config) (spec : List F64) (f0 shift : F64) : List F64 :=
  (List.range c.fftSize).map (SynthRef.synthSample c spec f0 shift)

/-- FRAME with V = 1 (R226): Accept, then the job is latched with the smoothed values just committed. -/
def startFrameJob (s : State) : Except ErrCode State :=
  match accept s with
  | .error e => .error e
  | .ok t => .ok (latchJob (.frame t.specOut t.smoF0) t)

/-- FRAME (R226): with V = 0 it has no effect in any state, before every gate (R220 step 2); with V = 1 it needs a running block that
is not busy. -/
def execFrame (v : Bool) (s : State) : Result :=
  match v with
  | false => .next s
  | true => issueGated true .running startFrameJob s

/-- SYNTH's checks and effect (R227): the job is latched with the operands as they stand. -/
def startSynthJob (s : State) : Except ErrCode State :=
  if validF0 s.f0In = false then .error .invalidF0
  else if validPowerSpectrum s.specIn = false then .error .invalidSpectrum
  else if validShift s.shiftIn = false then .error .invalidShift
  else .ok (latchJob (.synth s.specIn s.f0In s.shiftIn) s)

/-- SYNTH (R227): running or stopped, not busy. -/
def execSynth (s : State) : Result := issueGated true .any startSynthJob s

end Sys2Proof.Machine
end

