-- ==== Sys2Proof/Machine/Dispatch.lean ====
section
/-! DEFINITION. The meaning of every command, by constructor: steps 2 to 5 of spec/44_session_commands.md R220. Step 1, the decoding,
and the store in CMD are the host port's (Machine/HostPort.lean). -/

namespace Sys2Proof.Machine

def exec (i : Instr) (s : State) : Host.Outcome State Fault Refusal :=
  match i with
  | .nop => Sys2Proof.Machine.execNop s
  | .start => Sys2Proof.Machine.execStart s
  | .stop => Sys2Proof.Machine.execStop s
  | .config mode scap fcap => Sys2Proof.Machine.execConfig mode scap fcap s
  | .frame v => Sys2Proof.Machine.execFrame v s
  | .synth => Sys2Proof.Machine.execSynth s
  | .push => Sys2Proof.Machine.execPush s
  | .install => Sys2Proof.Machine.execInstall s
  | .setfreq => Sys2Proof.Machine.execSetfreq s
  | .clrerr => Sys2Proof.Machine.execClrerr s

end Sys2Proof.Machine
end

