-- ==== Sys2Proof/Machine/HostPort.lean ====
section
/-! DEFINITION. The host port (spec/20_memory.md): the address map, reads and writes of 8-byte locations, bus errors, and the issue of
a command by a write to CMD (spec/44_session_commands.md R220). -/

namespace Sys2Proof.Machine

/-- A mapped location (R63). -/
inductive Loc where
  | id0 | id1 | eps | cmd | status | actCfg | actXstep | xstepIn | f0In | shiftIn | oscFreq | xfProgress | smoF0 | winLen
  | oscPhase | pgState | audioOut
  | specIn (i : Nat) | specOut (i : Nat) | irIn (i : Nat) | irOut (i : Nat) | exportIr (i : Nat)
  deriving DecidableEq, Repr

/-- The register at offset `8·i` (R63). -/
def registerAt : Nat → Option Loc
  | 0 => some .id0
  | 1 => some .id1
  | 2 => some .eps
  | 3 => some .cmd
  | 4 => some .status
  | 5 => some .actCfg
  | 6 => some .actXstep
  | 7 => some .xstepIn
  | 8 => some .f0In
  | 9 => some .shiftIn
  | 10 => some .oscFreq
  | 11 => some .xfProgress
  | 12 => some .smoF0
  | 13 => some .winLen
  | 14 => some .oscPhase
  | 15 => some .pgState
  | 16 => some .audioOut
  | _ => none

/-- Element `i` of a buffer window, where the buffer has it (R63). -/
def bufferAt (size : Nat) (loc : Nat → Loc) (i : Nat) : Option Loc := if i < size then some (loc i) else none

/-- The location at an offset: none where the offset is no multiple of 8 or unmapped (R63, R64 cases 1 and 3, R66). -/
def locate (c : Config) (offset : Nat) : Option Loc :=
  let i := offset % 0x10000 / 8
  if offset % 8 ≠ 0 then none
  else
    match offset / 0x10000 with
    | 0 => registerAt i
    | 1 => bufferAt c.bins .specIn i
    | 2 => bufferAt c.bins .specOut i
    | 3 => bufferAt c.fftSize .irIn i
    | 4 => bufferAt c.fftSize .irOut i
    | 5 => bufferAt c.fftSize .exportIr i
    | _ => none

/-- The offset of a location (R63). -/
def Loc.offset : Loc → Nat
  | .id0 => 0x00 | .id1 => 0x08 | .eps => 0x10 | .cmd => 0x18 | .status => 0x20 | .actCfg => 0x28 | .actXstep => 0x30
  | .xstepIn => 0x38 | .f0In => 0x40 | .shiftIn => 0x48 | .oscFreq => 0x50 | .xfProgress => 0x58 | .smoF0 => 0x60
  | .winLen => 0x68 | .oscPhase => 0x70 | .pgState => 0x78 | .audioOut => 0x80
  | .specIn i => 0x10000 + 8 * i | .specOut i => 0x20000 + 8 * i | .irIn i => 0x30000 + 8 * i
  | .irOut i => 0x40000 + 8 * i | .exportIr i => 0x50000 + 8 * i

/-- How many elements the location's buffer has; a register counts as a buffer of one. -/
def Loc.size (c : Config) : Loc → Nat
  | .specIn _ | .specOut _ => c.bins
  | .irIn _ | .irOut _ | .exportIr _ => c.fftSize
  | _ => 1

/-- The location's place in its buffer. -/
def Loc.index : Loc → Nat
  | .specIn i | .specOut i | .irIn i | .irOut i | .exportIr i => i
  | _ => 0

/-- The location an access reaches: none where it is not 8 bytes wide (R64 case 2) or `locate` finds none. -/
def accessed (c : Config) (addr : Addr) (width : Nat) : Option Loc :=
  if width = 8 then locate c addr.toNat else none

/-- The 64-bit value of a location (R61): storage as it stands, and the views. -/
def readLoc (s : State) : Loc → Word
  | .id0 => s.id0Word
  | .id1 => s.id1Word
  | .eps => s.cfg.eps
  | .cmd => s.cmd
  | .status => s.statusWord
  | .actCfg => s.actCfgWord
  | .actXstep => s.actXstep
  | .xstepIn => s.xstepIn
  | .f0In => s.f0In
  | .shiftIn => s.shiftIn
  | .oscFreq => s.oscFreq
  | .xfProgress => s.xfProgress
  | .smoF0 => s.smoF0
  | .winLen => s.winLenWord
  | .oscPhase => s.oscPhase
  | .pgState => s.pgStateWord
  | .audioOut => s.audioOut
  | .specIn i => element s.specIn i
  | .specOut i => element s.specOut i
  | .irIn i => element s.irIn i
  | .irOut i => element s.irOut i
  | .exportIr i => element s.exportIr i

/-- The store of a word at a location the host may write (R62, R63): the RW storage locations, and CMD's own storage. None for a
read-only location (R64 case 4). -/
def storeLoc (s : State) (v : Word) : Loc → Option State
  | .cmd => some { s with cmd := v }
  | .xstepIn => some { s with xstepIn := v }
  | .f0In => some { s with f0In := v }
  | .shiftIn => some { s with shiftIn := v }
  | .specIn i => some { s with specIn := s.specIn.set i v }
  | .irIn i => some { s with irIn := s.irIn.set i v }
  | .id0 | .id1 | .eps | .status | .actCfg | .actXstep | .oscFreq | .xfProgress | .smoF0 | .winLen | .oscPhase | .pgState
  | .audioOut | .specOut _ | .irOut _ | .exportIr _ => none

/-- The port's response to the access just made. -/
def respond (r : Response) (s : State) : State := { s with response := some r }

/-- The read data of a response: 0 on a bus error (R61). A write carries none. -/
def Response.data : Response → Word
  | .read v => v
  | .written | .busError => 0#64

/-- MemRead (R61): only the response changes. -/
def hostRead (addr : Addr) (width : Nat) (s : State) : State :=
  match accessed s.cfg addr width with
  | some l => respond (.read (readLoc s l)) s
  | none => respond .busError s

/-- `issue(w)` (R220): a word that matches no row of R93 raises ILLEGAL_CMD and does nothing else (R96). -/
def issue (w : Word) (s : State) : Result :=
  match decode w with
  | .ok i => exec i s
  | .error _ => .next (raiseError .illegalCmd s)

/-- MemWrite (R62): a refused access changes nothing but the response (R64, R307); storage takes the word; CMD takes it and issues it
in the same step (R27, R220). The response of a mapped, writable location is OK whatever the command does (R237). -/
def hostWrite (addr : Addr) (width : Nat) (v : Word) (s : State) : Result :=
  match accessed s.cfg addr width with
  | none => .next (respond .busError s)
  | some l =>
    match storeLoc s v l with
    | none => .next (respond .busError s)
    | some t => if l = .cmd then issue v (respond .written t) else .next (respond .written t)

/-- The word at a mapped, aligned offset, if there is one: how statements name a location by its address. -/
def wordAt (s : State) (addr : Addr) : Option Word := (locate s.cfg addr.toNat).map (readLoc s)

/-- The byte at an address, as a bridge that splits words sees it: little-endian, the byte at +0 holding bits 7:0 (R65). -/
def byteAt (s : State) (addr : Addr) : Option Byte :=
  (locate s.cfg (addr.toNat / 8 * 8)).map fun l => (readLoc s l).extractLsb' (8 * (addr.toNat % 8)) 8

end Sys2Proof.Machine
end

