-- ==== Sys2Proof/Machine/PulseGenerator.lean ====
section
/-! DEFINITION. glottal_pulse_generator (spec/42_pulse_generator.md). -/

namespace Sys2Proof.Machine

/-- `pg_step(e, s)`: 1.0 exactly on a step from Low to a sample above 0. Zeros of either sign and NaN are not above 0 (R180). -/
def pgStep (e : Edge) (x : F64) : F64 × Edge :=
  if Fp.lt Fp.zero x then
    match e with
    | .low => (Fp.one, .high)
    | .high => (Fp.zero, .high)
  else (Fp.zero, .low)

end Sys2Proof.Machine
end

