-- ==== Sys2Proof/Machine/Events.lean ====
section
/-! DEFINITION. The steps of the other agents: SAMPLE_TICK (spec/45_sample_domain.md), JOB_DONE (spec/44_session_commands.md R235),
AUDIO_FAULT (spec/60_exceptions.md R300), RESET (spec/70_reset_and_hazards.md R320), and one step of any agent. XFADE_TICK is in
Machine/Crossfader.lean, the host's accesses in Machine/HostPort.lean. -/

namespace Sys2Proof.Machine

/-- The oscillator's sample, from the phase before its advance (R271). -/
def oscSample (phase : F64) : F64 := if Fp.lt phase Fp.half then Fp.one else Fp.negOne

/-- The phase after one sample period: `t = φ + OSC_FREQ / FS`, then `t - floor(t)` (R270). DESIGN CHOICE
(log entry 24): where `OSC_FREQ / FS` is `1 / 2^j` with j above 53, these F64 operations cannot give the phases R272 claims, and the model
follows R270. -/
def advancePhase (sampleRate : Nat) (freq phase : F64) : F64 :=
  Fp.sub (Fp.add phase (Fp.div freq (Fp.ofNat sampleRate))) (Fp.floor (Fp.add phase (Fp.div freq (Fp.ofNat sampleRate))))

/-- The pulse-train sample of a tick, from the old phase and the old edge state (R276). -/
def pulseOf (s : State) : F64 := (pgStep s.edge (oscSample s.oscPhase)).1

/-- The sample a running session puts out (R276), before the bits of a NaN are drawn. -/
def sampleOf (s : State) : F64 := mix (stepFilters s.cfg (pulseOf s) s.occ)

/-- The sample as `audio_out` carries it: the output stage is the identity (R273); a NaN has drawn bits (I12). -/
def emitted (draw : Nat) (v : F64) : F64 := if Fp.isNaN v then Fp.nanOf (Config.nanDraw draw) else v

/-- SAMPLE_TICK (R274, R276): stopped, +0.0 and nothing else; running, the oscillator, the pulse generator, every filter, the mix and
the output, in that order. -/
def sampleTick (s : State) : State :=
  if s.running then
    { s with
      oscPhase := advancePhase s.cfg.sampleRate s.oscFreq s.oscPhase
      edge := (pgStep s.edge (oscSample s.oscPhase)).2
      occ := stepFilters s.cfg (pulseOf s) s.occ
      audioOut := emitted s.draws (sampleOf s)
      draws := if Fp.isNaN (sampleOf s) then s.draws + 1 else s.draws }
  else { s with audioOut := Fp.zero }

/-- The result of a job: its latched operands synthesized, a FRAME job with shift +0.0 (R226, R235). -/
def jobResult (c : Config) : Job → List F64
  | .frame spec f0 => synthesize c spec f0 Fp.zero
  | .synth spec f0 shift => synthesize c spec f0 shift

/-- JOB_DONE of a job (R235): a FRAME job's result is installed and OSC_FREQ follows it in the same step, or INVALID_IR is recorded
and neither happens (R299). A SYNTH job writes IR_OUT alone. -/
def completeJob (j : Job) (s : State) : State :=
  let ir := jobResult s.cfg j
  match j with
  | .frame _ f0 =>
    if allFinite ir then setOscFreq f0 (installFilter ir (finishJob ir s)) else raiseError .invalidIr (finishJob ir s)
  | .synth _ _ _ => finishJob ir s

/-- JOB_DONE (R235): enabled exactly when STATUS.BUSY = 1 (R22). -/
def jobDone (s : State) : Result :=
  match s.latch with
  | some j => .next (completeJob j s)
  | none => .fault .jobDoneNotEnabled

/-- AUDIO_FAULT (R300): its bit and nothing else. -/
def audioFaultEvent (s : State) : State := { s with audioFault := true }

/-- RESET (R320, R321): every piece of state, whatever the block was doing, with fresh draws for the unspecified buffers. What the
agents do next is not the block's state and stays. -/
def resetEvent (s : State) : State := { State.resetOf s.cfg (s.draws + 1) with schedule := s.schedule }

/-- One step of one agent (R2, R22). -/
def perform (e : Event) (s : State) : Result :=
  match e with
  | .hostRead addr width => .next (hostRead addr width s)
  | .hostWrite addr width v => hostWrite addr width v s
  | .sampleTick => .next (sampleTick s)
  | .xfadeTick => .next (xfadeTick s)
  | .jobDone => jobDone s
  | .audioFault => .next (audioFaultEvent s)
  | .reset => .next (resetEvent s)

/-- The next agent step of the schedule; with none listed nothing happens (log entry 1). -/
def runSchedule (s : State) : Result :=
  match s.schedule with
  | [] => .next s
  | e :: rest => perform e { s with schedule := rest }

/-- CMD's offset (R63). -/
def cmdAddr : Addr := 0x00018#32

/-- The host's write of a command word to CMD (R62, R99). -/
def commandWrite (w : Word) : Event := .hostWrite cmdAddr 8 w

/-- The schedule with a command write put before everything else. -/
def scheduleCommand (w : Word) (s : State) : State := { s with schedule := commandWrite w :: s.schedule }

end Sys2Proof.Machine
end

