-- ==== Sys2Proof/Machine/Step.lean ====
section
/-! DEFINITION. One step of the block, and the placing of a command where the next step takes it. -/

namespace Sys2Proof.Machine

/-- One step: the first agent step of the schedule (R2). -/
def step (s : State) : Host.Outcome State Fault Refusal := runSchedule s

/-- The state whose next step is the host's write to CMD of the word with low `nbits` bits `w` and all others 0. The block fetches
nothing (R21): a command runs when the host writes it, so this stands for the host (log entry 11). -/
def State.withFetchWord (s : State) (nbits w : Nat) : State := scheduleCommand (BitVec.ofNat 64 (w % 2 ^ nbits)) s

end Sys2Proof.Machine
end

