-- ==== Sys2Proof/Safety.lean ====
section
/-! DEFINITION. What counts as a safe run, in the terms statements use: the invariant of the block, which agent steps are enabled, and
which locations a command may change. -/

namespace Sys2Proof.Machine

/-- An agent's step is enabled (R22): JOB_DONE while a job is in flight, every other step always. -/
def Event.enabled (s : State) : Event → Bool
  | .jobDone => s.busy
  | .hostRead _ _ | .hostWrite _ _ _ | .sampleTick | .xfadeTick | .audioFault | .reset => true

/-- The schedule's next step, if there is one, is enabled: the run goes on as some execution does (R2). -/
def State.nextEnabled (s : State) : Bool := s.schedule.head?.all (Event.enabled s)

/-- The canonical form of the block's storage: every buffer is the list of exactly its elements (R42 to R45, R63), so that equal
contents are equal data (log entry 15). -/
def Memory.wf (s : State) : Bool :=
  decide (s.specIn.length = s.cfg.bins) && decide (s.specOut.length = s.cfg.bins)
    && decide (s.irIn.length = s.cfg.fftSize) && decide (s.irOut.length = s.cfg.fftSize)

/-- A filter of an instance (R48, R191, R194): `L` finite taps, and `L` past pulse samples, each 0.0 or 1.0. -/
def FilterSlot.ok (c : Config) (f : FilterSlot) : Prop :=
  f.ir.length = c.fftSize ∧ f.dl.length = c.fftSize ∧ allFinite f.ir = true ∧ ∀ x ∈ f.dl, x = Fp.zero ∨ x = Fp.one

/-- A value in [0, 1). -/
def inUnitInterval (p : F64) : Bool := Fp.le Fp.zero p && Fp.lt p Fp.one

/-- An occupancy of an instance (R47): filters that are filters, and a progress in [0, 1). -/
def Occupancy.ok (c : Config) : Occupancy → Prop
  | .empty => True
  | .single a => a.ok c
  | .dual o n p => o.ok c ∧ n.ok c ∧ inUnitInterval p = true

/-- A job with operands its command accepts (R51, R121, R225, R227). -/
def Job.ok (c : Config) : Job → Prop
  | .frame spec f0 => spec.length = c.bins ∧ allFinite spec = true ∧ validF0 f0 = true
  | .synth spec f0 shift =>
    spec.length = c.bins ∧ validPowerSpectrum spec = true ∧ validF0 f0 = true ∧ validShift shift = true

/-- A FRAME job (R235: it runs only in a running session). -/
def Job.isFrame : Job → Bool
  | .frame _ _ => true
  | .synth _ _ _ => false

/-- The invariant of the block: what every step keeps, whatever the agents do. -/
structure State.Inv (s : State) : Prop where
  /-- The parameters make an instance (R3 to R6). -/
  cfgWf : s.cfg.wf = true
  /-- Every buffer has its length (R42 to R45). -/
  memoryWf : Memory.wf s = true
  /-- The capacities fit ACT_CFG's fields and are not 0 (R29, R222). -/
  specCapRange : 1 ≤ s.specCap ∧ s.specCap < 2 ^ 16
  f0CapRange : 1 ≤ s.f0Cap ∧ s.f0Cap < 2 ^ 16
  /-- The windows' lengths fit WIN_LEN's fields (R38), and the spectral window holds whole spectra (R46). -/
  swShape : s.sw.length < 2 ^ 16 ∧ ∀ w ∈ s.sw, w.length = s.cfg.bins
  fwShape : s.fw.length < 2 ^ 16
  /-- While a session runs the windows hold at most their capacity (R46; CONFIG does not truncate them while stopped, R222). -/
  windowsBounded : s.running = true → s.sw.length ≤ s.specCap ∧ s.fw.length ≤ s.f0Cap
  /-- The active step is in (0, 1] (R30). -/
  stepValid : validXstep s.actXstep = true
  /-- OSC_FREQ is +0.0 or a finite positive value (R270). -/
  freqValid : s.oscFreq = Fp.zero ∨ validF0 s.oscFreq = true
  /-- The occupancy is well formed, and Empty while stopped (R47, R274). -/
  occOk : s.occ.ok s.cfg
  stoppedEmpty : s.running = false → s.occ = .empty
  /-- The job latch is well formed, and a FRAME job runs only in a session (R51, R235). -/
  latchOk : ∀ j, s.latch = some j → j.ok s.cfg ∧ (j.isFrame = true → s.running = true)

/-- The mapped offsets of R63, by number. -/
def mappedOffset (c : Config) (a : Nat) : Prop :=
  a ≤ 0x80
    ∨ (0x10000 ≤ a ∧ a < 0x10000 + 8 * c.bins) ∨ (0x20000 ≤ a ∧ a < 0x20000 + 8 * c.bins)
    ∨ (0x30000 ≤ a ∧ a < 0x30000 + 8 * c.fftSize) ∨ (0x40000 ≤ a ∧ a < 0x40000 + 8 * c.fftSize)
    ∨ (0x50000 ≤ a ∧ a < 0x50000 + 8 * c.fftSize)

/-- The offsets of the RW storage locations of R63, by number: XSTEP_IN, F0_IN, SHIFT_IN, SPEC_IN, IR_IN. -/
def storageOffset (c : Config) (a : Nat) : Prop :=
  a = 0x38 ∨ a = 0x40 ∨ a = 0x48
    ∨ (0x10000 ≤ a ∧ a < 0x10000 + 8 * c.bins) ∨ (0x30000 ≤ a ∧ a < 0x30000 + 8 * c.fftSize)

/-- The host port refuses a read (R64 cases 1 to 3). -/
def readRefused (c : Config) (a width : Nat) : Prop := a % 8 ≠ 0 ∨ width ≠ 8 ∨ ¬ mappedOffset c a

/-- The host port refuses a write (R64 cases 1 to 4): CMD, at 0x18, and RW storage are all the host may write. -/
def writeRefused (c : Config) (a width : Nat) : Prop := readRefused c a width ∨ ¬ (a = 0x18 ∨ storageOffset c a)

/-- The command that the schedule's next step issues, if it issues one. -/
def State.nextCommand (s : State) : Option Instr :=
  match s.schedule with
  | .hostWrite a width v :: _ => if accessed s.cfg a width = some .cmd then (decode v).toOption else none
  | _ => none

/-- The latched job, if any, is a FRAME job. -/
def State.frameInFlight (s : State) : Bool := s.latch.any Job.isFrame

/-- The pulse generator's outputs over a run of samples (R180). -/
def pulseTrain : Edge → List F64 → List F64
  | _, [] => []
  | e, x :: xs => (pgStep e x).1 :: pulseTrain (pgStep e x).2 xs

/-- How often a run of flags goes from false to true, the flag before the run being `before`. -/
def risingEdges : Bool → List Bool → Nat
  | _, [] => 0
  | before, b :: bs => (if b && !before then 1 else 0) + risingEdges b bs

/-- The left-fold sum of `k` copies of a step, from +0.0 (R198). -/
def stepSum (x : F64) : Nat → F64
  | 0 => Fp.zero
  | k + 1 => Fp.add (stepSum x k) x

/-- The state after `k` crossfade ticks with nothing between them. -/
def afterTicks (s : State) : Nat → State
  | 0 => s
  | k + 1 => xfadeTick (afterTicks s k)

/-- The phase after `k` samples at one frequency (R270). -/
def afterSamples (sampleRate : Nat) (freq phase : F64) : Nat → F64
  | 0 => phase
  | k + 1 => advancePhase sampleRate freq (afterSamples sampleRate freq phase k)

/-- The locations that show the smoother's result (R165). -/
def Loc.showsSmoother : Loc → Bool
  | .specOut _ | .smoF0 | .winLen => true
  | _ => false

/-- The locations that show the crossfader's filters, STATUS.OCC apart (R35, R37). -/
def Loc.showsFilters : Loc → Bool
  | .xfProgress | .exportIr _ => true
  | _ => false

/-- The locations whose value a command may change, CMD's own store apart: what its rule writes, in the views that show it, and
STATUS, which holds the error record (R221 to R232, R292). -/
def mayChange (l : Loc) : Instr → Bool
  | .nop => false
  | .start => l = .status || l = .oscFreq || l = .oscPhase || l = .winLen || l = .pgState || l.showsFilters
  | .stop => l = .status || l = .pgState || l.showsFilters
  | .config _ _ _ => l = .status || l = .actCfg || l = .actXstep
  | .frame v => v && (l = .status || l.showsSmoother)
  | .synth => l = .status
  | .push => l = .status || l.showsSmoother
  | .install => l = .status || l.showsFilters
  | .setfreq => l = .status || l = .oscFreq
  | .clrerr => l = .status

end Sys2Proof.Machine
end

