-- ==== Sys2Proof/Certificates/Slice0/Obligations.lean ====
section
/-! DEFINITION. The statements for the provers. Each docstring names the rules of spec/ it formalises. -/

open Sys2Proof Sys2Proof.Machine

/-! ### Encoding -/

/-- Decode after encode, for every well-formed command and every operand value (R91, R93 to R95). -/
def Obligations.DecodeOfEncode : Prop :=
  ∀ i : Instr, i.wf = true → decode (encode i) = .ok i

/-- Encode after decode: a word that decodes is the word of its command, so no bit of it is dropped (R91, R93). -/
def Obligations.EncodeOfDecode : Prop :=
  ∀ (w : Word) (i : Instr), decode w = .ok i → i.wf = true ∧ encode i = w

/-- R93: at most one row matches any word. -/
def Obligations.AtMostOneRowMatches : Prop :=
  ∀ w : Word, (opcodeTable.filter fun r => r.selects w).length ≤ 1

/-- R96 with R91: exactly the words with a reserved OPC, or with a must-be-0 bit set, are no command. -/
def Obligations.IllegalWordsAreReservedOrNonzero : Prop :=
  ∀ w : Word, (∃ e, decode w = .error e) ↔
    0x0A ≤ w.toNat % 2 ^ 8
      ∨ (w.toNat % 2 ^ 8 = 3 ∧ (w.toNat / 2 ^ 9 % 2 ^ 7 ≠ 0 ∨ w.toNat / 2 ^ 48 ≠ 0))
      ∨ (w.toNat % 2 ^ 8 = 4 ∧ w.toNat / 2 ^ 9 ≠ 0)
      ∨ (w.toNat % 2 ^ 8 < 0x0A ∧ w.toNat % 2 ^ 8 ≠ 3 ∧ w.toNat % 2 ^ 8 ≠ 4 ∧ w.toNat / 2 ^ 8 ≠ 0)

/-- R104: the worked encodings, each the word of its command and decoded to it, and the two illegal words. -/
def Obligations.WorkedEncodings : Prop :=
  (encode .start = 0x0000000000000001#64 ∧ decode 0x0000000000000001#64 = .ok .start)
    ∧ (encode (.frame true) = 0x0000000000000104#64 ∧ decode 0x0000000000000104#64 = .ok (.frame true))
    ∧ (encode (.frame false) = 0x0000000000000004#64 ∧ decode 0x0000000000000004#64 = .ok (.frame false))
    ∧ (encode (.config .sliding 2 50) = 0x0000003200020103#64
        ∧ decode 0x0000003200020103#64 = .ok (.config .sliding 2 50))
    ∧ (encode (.config .sliding 2 3) = 0x0000000300020103#64
        ∧ decode 0x0000000300020103#64 = .ok (.config .sliding 2 3))
    ∧ (encode (.config .truncating 2 50) = 0x0000003200020003#64
        ∧ decode 0x0000003200020003#64 = .ok (.config .truncating 2 50))
    ∧ (∃ e, decode 0x0000000000000100#64 = .error e)
    ∧ (∃ e, decode 0x000000000000000A#64 = .error e)

/-! ### One step -/

/-- A step runs the decoded command: a host write of its word to CMD at the head of the schedule stores the word, answers OK, and is
`exec` of the command (R27, R62, R220). -/
def Obligations.StepRunsDecodedCommand : Prop :=
  ∀ (s : State) (w : Word) (i : Instr) (rest : List Event),
    s.schedule = commandWrite w :: rest → decode w = .ok i →
    step s = exec i { s with schedule := rest, cmd := w, response := some .written }

/-- R96: an illegal word is stored in CMD, raises ILLEGAL_CMD, and has no other effect. -/
def Obligations.IllegalWordIsStoredAndRecorded : Prop :=
  ∀ (s : State) (w : Word) (e : DecodeError) (rest : List Event),
    s.schedule = commandWrite w :: rest → decode w = .error e →
    step s = .next { s with
      schedule := rest, cmd := w, response := some .written, err := some (s.err.getD .illegalCmd) }

/-- R22, R71, R235: a step whose agent is enabled goes on, in every state; SAMPLE_TICK and every host access always are, JOB_DONE
exactly when STATUS.BUSY = 1. That a JOB_DONE that is not enabled stops the model with a fault is the MODEL'S CHOICE (log entry 3). -/
def Obligations.StepCompletesExactlyWhenEnabled : Prop :=
  ∀ s : State,
    (s.nextEnabled = true → ∃ t, step s = .next t)
      ∧ (∀ rest, s.schedule = .jobDone :: rest →
          (s.busy = false → step s = .fault .jobDoneNotEnabled) ∧ (s.busy = true → ∃ t, step s = .next t))

/-- R24: no step changes the instance's parameters, so ID0, ID1 and EPS read the same after every step. -/
def Obligations.InstanceIsConstant : Prop :=
  ∀ s t : State, step s = .next t →
    t.cfg = s.cfg ∧ readLoc t .id0 = readLoc s .id0 ∧ readLoc t .id1 = readLoc s .id1 ∧ readLoc t .eps = readLoc s .eps

/-! ### The host port -/

/-- R61, R64: a refused read answers a bus error, whose data is 0; any other answers the location's value. The response and the
schedule apart, no state changes. Which state each offset shows is R63's map, with the registers of R24 to R41 and the buffers of R42 to
R45 and R37; what the words of STATUS, ACT_CFG, WIN_LEN and PG_STATE hold is StatusShowsItsFields. -/
def Obligations.HostReadAnswers : Prop :=
  (∀ (s : State) (addr : Addr) (width : Nat) (rest : List Event),
      s.cfg.wf = true → s.schedule = .hostRead addr width :: rest →
      (readRefused s.cfg addr.toNat width → step s = .next { s with schedule := rest, response := some .busError })
        ∧ (¬ readRefused s.cfg addr.toNat width →
            ∃ w, wordAt s addr = some w ∧ step s = .next { s with schedule := rest, response := some (.read w) })
        ∧ Response.busError.data = 0#64)
    ∧ (∀ s : State,
        wordAt s 0x00#32 = some (BitVec.ofNat 32 s.cfg.sampleRate ++ BitVec.ofNat 32 s.cfg.fftSize)
          ∧ wordAt s 0x08#32 = some (0#32 ++ BitVec.ofNat 16 s.cfg.f0CapMax ++ BitVec.ofNat 16 s.cfg.specCapMax)
          ∧ wordAt s 0x10#32 = some s.cfg.eps ∧ wordAt s 0x18#32 = some s.cmd ∧ wordAt s 0x20#32 = some (readLoc s .status)
          ∧ wordAt s 0x28#32 = some (readLoc s .actCfg) ∧ wordAt s 0x30#32 = some s.actXstep
          ∧ wordAt s 0x38#32 = some s.xstepIn ∧ wordAt s 0x40#32 = some s.f0In ∧ wordAt s 0x48#32 = some s.shiftIn
          ∧ wordAt s 0x50#32 = some s.oscFreq
          ∧ (∀ o n p, s.occ = .dual o n p → wordAt s 0x58#32 = some p)
          ∧ ((∀ o n p, s.occ ≠ .dual o n p) → wordAt s 0x58#32 = some 0#64)
          ∧ wordAt s 0x60#32 = some s.smoF0 ∧ wordAt s 0x68#32 = some (readLoc s .winLen)
          ∧ wordAt s 0x70#32 = some s.oscPhase ∧ wordAt s 0x78#32 = some (readLoc s .pgState)
          ∧ wordAt s 0x80#32 = some s.audioOut)
    ∧ ∀ (s : State) (i : Nat), s.Inv →
        (i < s.cfg.bins →
            wordAt s (BitVec.ofNat 32 (0x10000 + 8 * i)) = s.specIn[i]?
              ∧ wordAt s (BitVec.ofNat 32 (0x20000 + 8 * i)) = s.specOut[i]?)
          ∧ (i < s.cfg.fftSize →
              wordAt s (BitVec.ofNat 32 (0x30000 + 8 * i)) = s.irIn[i]?
                ∧ wordAt s (BitVec.ofNat 32 (0x40000 + 8 * i)) = s.irOut[i]?
                ∧ (s.occ = .empty → wordAt s (BitVec.ofNat 32 (0x50000 + 8 * i)) = some 0#64)
                ∧ (∀ a, s.occ = .single a → wordAt s (BitVec.ofNat 32 (0x50000 + 8 * i)) = a.ir[i]?)
                ∧ (∀ o n p, s.occ = .dual o n p → wordAt s (BitVec.ofNat 32 (0x50000 + 8 * i)) = n.ir[i]?))

/-- R64, R307: the host port refuses a write exactly in the four cases of R64, and then nothing changes but the response; every other
write is answered OK, whatever the command it may issue does (R237). -/
def Obligations.HostWriteRefusedExactly : Prop :=
  ∀ (s : State) (addr : Addr) (width : Nat) (v : Word) (rest : List Event),
    s.cfg.wf = true → s.schedule = .hostWrite addr width v :: rest →
    (writeRefused s.cfg addr.toNat width → step s = .next { s with schedule := rest, response := some .busError })
      ∧ (¬ writeRefused s.cfg addr.toNat width → ∃ t, step s = .next t ∧ t.response = some .written)

/-- R28, R291: STATUS shows the session, the job, the error record with its code's number, the sink's fault, the completion, the
occupancy and the job's kind in its fields, and 0 in the reserved bits. R29: ACT_CFG shows the mode in bit 8 and the capacities in
bits 31:16 and 47:32, and 0 elsewhere. R38: WIN_LEN shows the lengths of the spectral window in bits
15:0 and of the f0 window in bits 31:16, and 0 above. R40: PG_STATE reads 0 for Low and 1 for High. -/
def Obligations.StatusShowsItsFields : Prop :=
  ∀ (s : State) (w : Word), w = readLoc s .status →
    w.getLsbD 0 = s.running ∧ (w.getLsbD 1 = true ↔ s.latch ≠ none) ∧ (w.getLsbD 2 = true ↔ s.err ≠ none)
      ∧ w.getLsbD 3 = s.audioFault ∧ w.getLsbD 4 = s.done ∧ w.toNat / 2 ^ 5 % 2 ^ 3 = 0
      ∧ (s.err = none → w.toNat / 2 ^ 8 % 2 ^ 8 = 0)
      ∧ (∀ row ∈ ([(.illegalCmd, 1), (.notRunning, 2), (.notStopped, 3), (.busy, 4), (.invalidF0, 5), (.invalidSpectrum, 6),
            (.invalidShift, 7), (.invalidIr, 8), (.invalidConfig, 9)] : List (ErrCode × Nat)),
          s.err = some row.1 → w.toNat / 2 ^ 8 % 2 ^ 8 = row.2)
      ∧ (s.occ = .empty → w.toNat / 2 ^ 16 % 2 ^ 2 = 0) ∧ (∀ a, s.occ = .single a → w.toNat / 2 ^ 16 % 2 ^ 2 = 1)
      ∧ (∀ o n p, s.occ = .dual o n p → w.toNat / 2 ^ 16 % 2 ^ 2 = 2)
      ∧ (s.latch = none → w.toNat / 2 ^ 18 % 2 ^ 2 = 0)
      ∧ (∀ spec f0, s.latch = some (.frame spec f0) → w.toNat / 2 ^ 18 % 2 ^ 2 = 1)
      ∧ (∀ spec f0 x, s.latch = some (.synth spec f0 x) → w.toNat / 2 ^ 18 % 2 ^ 2 = 2)
      ∧ w.toNat / 2 ^ 20 = 0
      ∧ (s.specCap < 2 ^ 16 → s.f0Cap < 2 ^ 16 →
          (readLoc s .actCfg).toNat = s.f0Cap * 2 ^ 32 + s.specCap * 2 ^ 16 + if s.mode = .sliding then 2 ^ 8 else 0)
      ∧ (s.sw.length < 2 ^ 16 → (readLoc s .winLen).toNat % 2 ^ 16 = s.sw.length)
      ∧ (s.fw.length < 2 ^ 16 → (readLoc s .winLen).toNat / 2 ^ 16 % 2 ^ 16 = s.fw.length)
      ∧ (readLoc s .winLen).toNat / 2 ^ 32 = 0
      ∧ (s.edge = .low → readLoc s .pgState = 0#64) ∧ (s.edge = .high → readLoc s .pgState = 1#64)

/-- R62: a write to RW storage is read back, every other location reads as before, and nothing else changes. -/
def Obligations.StorageWriteReadsBack : Prop :=
  ∀ (s : State) (addr : Addr) (v : Word) (rest : List Event),
    s.Inv → addr.toNat % 8 = 0 → storageOffset s.cfg addr.toNat → s.schedule = .hostWrite addr 8 v :: rest →
    ∃ t, step s = .next t ∧ wordAt t addr = some v ∧ (∀ b, b ≠ addr → wordAt t b = wordAt s b)
      ∧ { t with
          xstepIn := s.xstepIn, f0In := s.f0In, shiftIn := s.shiftIn, specIn := s.specIn, irIn := s.irIn,
          response := s.response, schedule := s.schedule } = s

/-- R65: the byte at offset +j of a location holds bits 8j+7 to 8j. -/
def Obligations.BytesAreLittleEndian : Prop :=
  ∀ (s : State) (addr : Addr) (w : Word) (j : Nat), wordAt s addr = some w → j < 8 →
    byteAt s (addr + BitVec.ofNat 32 j) = some (BitVec.ofNat 8 (w.toNat / 2 ^ (8 * j)))

/-! ### Errors -/

/-- R292, R298: the error action records the code if none is recorded, keeps the first code if one is, and changes nothing else. -/
def Obligations.ErrorActionRecordsFirst : Prop :=
  ∀ (s : State) (e : ErrCode),
    (s.err = none → raiseError e s = { s with err := some e }) ∧ (∀ c, s.err = some c → raiseError e s = s)

/-- R293: a command that is refused changes the error record alone. Whether a command is refused, and with which code, does not depend
on the record, so a command refused while an error is recorded changes nothing at all (R298). -/
def Obligations.RefusalIsPrecise : Prop :=
  ∀ (i : Instr) (s u : State) (e : ErrCode), exec i { s with err := none } = .next u → u.err = some e →
    u = { s with err := some e } ∧ exec i s = .next { s with err := some (s.err.getD e) }

/-- R290, R298: a recorded error stays, code and all, through every step but RESET and the CLRERR command; and one is recorded only by
a write to CMD or by the completion of a FRAME job. -/
def Obligations.ErrorRecordWriters : Prop :=
  ∀ s t : State, step s = .next t →
    (∀ c, s.err = some c → t.err = some c ∨ s.schedule.head? = some .reset ∨ s.nextCommand = some .clrerr)
      ∧ (s.err = none → t.err ≠ none →
          (∃ w rest, s.schedule = commandWrite w :: rest)
            ∨ (s.schedule.head? = some .jobDone ∧ s.frameInFlight = true ∧ t.err = some .invalidIr))

/-! ### Commands -/

/-- R224, R97: NOP is the all-zero word and no other, and in every state it has no effect beyond the CMD store. -/
def Obligations.NopHasNoEffect : Prop :=
  (∀ w : Word, decode w = .ok .nop ↔ w = 0#64) ∧ (∀ s : State, exec .nop s = .next s)
    ∧ ∀ (s : State) (rest : List Event), s.schedule = commandWrite 0#64 :: rest →
        step s = .next { s with schedule := rest, cmd := 0#64, response := some .written }

/-- R221: START of a stopped block that is not busy begins a session with empty windows, phase and frequency +0.0, the edge Low and
no filter; WIN_LEN reads 0 and EXPORT_IR zeros. Nothing else changes. A busy block refuses it with BUSY, a running one with
NOT_STOPPED. -/
def Obligations.StartBeginsSession : Prop :=
  ∀ s : State,
    (s.busy = false → s.running = false →
      ∃ t, exec .start s = .next t
        ∧ t = { s with
            running := true, sw := [], fw := [], oscPhase := Fp.zero, oscFreq := Fp.zero, edge := .low, occ := .empty }
        ∧ t.winLenWord = 0#64 ∧ t.exportIr = List.replicate s.cfg.fftSize Fp.zero)
      ∧ (s.busy = true → exec .start s = .next (raiseError .busy s))
      ∧ (s.busy = false → s.running = true → exec .start s = .next (raiseError .notStopped s))

/-- R222: CONFIG of a stopped block that is not busy sets the mode, the capacities and the step from legal operands, and refuses any
other with INVALID_CONFIG. A busy block refuses it with BUSY, a running one with NOT_STOPPED. -/
def Obligations.ConfigSetsLegalOperands : Prop :=
  ∀ (s : State) (m : SmoothMode) (scap fcap : Nat) (legal : Prop),
    (legal ↔ 1 ≤ scap ∧ scap ≤ s.cfg.specCapMax ∧ 1 ≤ fcap ∧ fcap ≤ s.cfg.f0CapMax ∧ Fp.finite s.xstepIn = true
      ∧ Fp.lt Fp.zero s.xstepIn = true ∧ Fp.le s.xstepIn Fp.one = true) →
    (s.busy = false → s.running = false → legal →
      exec (.config m scap fcap) s = .next { s with mode := m, specCap := scap, f0Cap := fcap, actXstep := s.xstepIn })
    ∧ (s.busy = false → s.running = false → ¬ legal → exec (.config m scap fcap) s = .next (raiseError .invalidConfig s))
    ∧ (s.busy = true → exec (.config m scap fcap) s = .next (raiseError .busy s))
    ∧ (s.busy = false → s.running = true → exec (.config m scap fcap) s = .next (raiseError .notStopped s))

/-- R94: after an accepted CONFIG, ACT_CFG with 0x03 in its low bits is the command word that set it. -/
def Obligations.ActCfgGivesConfigWordBack : Prop :=
  ∀ (s t : State) (m : SmoothMode) (scap fcap : Nat), s.err = none →
    exec (.config m scap fcap) s = .next t → t.err = none →
    t.actCfgWord ||| 3#64 = encode (.config m scap fcap)

/-- R223: STOP runs in every state. It cancels any job, and tears a running session down: no filter, the edge Low. DONE, the windows,
the oscillator and the results are kept. -/
def Obligations.StopTearsDown : Prop :=
  ∀ s : State,
    (s.running = true →
      ∃ t, exec .stop s = .next t ∧ t = { s with latch := none, running := false, occ := .empty, edge := .low }
        ∧ t.exportIr = List.replicate s.cfg.fftSize Fp.zero)
      ∧ (s.running = false → exec .stop s = .next { s with latch := none })

/-- R228 with R225: PUSH of a running block that is not busy makes Accept's four checks in order, and commits the tentative push if
all pass, after which WIN_LEN reads the lengths of the new windows; it does nothing else. A busy block refuses it with BUSY, a stopped
one with NOT_RUNNING. -/
def Obligations.PushChecksThenCommits : Prop :=
  ∀ (s : State) (r : Smoothed), r = smoothPush s s.specIn s.f0In →
    (s.busy = true → exec .push s = .next (raiseError .busy s))
      ∧ (s.busy = false → s.running = false → exec .push s = .next (raiseError .notRunning s))
      ∧ (s.busy = false → s.running = true →
          (validF0 s.f0In = false → exec .push s = .next (raiseError .invalidF0 s))
            ∧ (validF0 s.f0In = true → allFinite s.specIn = false → exec .push s = .next (raiseError .invalidSpectrum s))
            ∧ (validF0 s.f0In = true → allFinite s.specIn = true → validF0 r.f0 = false →
                exec .push s = .next (raiseError .invalidF0 s))
            ∧ (validF0 s.f0In = true → allFinite s.specIn = true → validF0 r.f0 = true → allFinite r.spec = false →
                exec .push s = .next (raiseError .invalidSpectrum s))
            ∧ (validF0 s.f0In = true → allFinite s.specIn = true → validF0 r.f0 = true → allFinite r.spec = true →
                ∃ t, exec .push s = .next t ∧ t = { s with sw := r.sw, fw := r.fw, specOut := r.spec, smoF0 := r.f0 }
                  ∧ (s.specCap < 2 ^ 16 → s.f0Cap < 2 ^ 16 →
                      (readLoc t .winLen).toNat = r.fw.length * 2 ^ 16 + r.sw.length)))

/-- R226: FRAME with V = 0 has no effect in any state; with V = 1 it commits the accepted push of a running block that is not busy
and latches a job with the values just committed, or raises the error Accept names. A busy block refuses it with BUSY, a stopped one
with NOT_RUNNING. -/
def Obligations.FrameCommitsAndLatches : Prop :=
  ∀ s : State, exec (.frame false) s = .next s
    ∧ (s.busy = true → exec (.frame true) s = .next (raiseError .busy s))
    ∧ (s.busy = false → s.running = false → exec (.frame true) s = .next (raiseError .notRunning s))
    ∧ (s.busy = false → s.running = true →
        (∀ e, accept s = .error e → exec (.frame true) s = .next (raiseError e s))
          ∧ (∀ r, r = smoothPush s s.specIn s.f0In → validF0 s.f0In = true → allFinite s.specIn = true →
              validF0 r.f0 = true → allFinite r.spec = true →
              exec (.frame true) s = .next { s with
                sw := r.sw, fw := r.fw, specOut := r.spec, smoF0 := r.f0,
                latch := some (.frame r.spec r.f0), done := false }))

/-- R227: SYNTH of a block that is not busy, running or stopped, checks f0, then the spectrum, then the shift, and latches a job with
the operands as they stand. A busy block refuses it with BUSY. -/
def Obligations.SynthLatchesOperands : Prop :=
  ∀ s : State,
    (s.busy = true → exec .synth s = .next (raiseError .busy s))
      ∧ (s.busy = false → validF0 s.f0In = false → exec .synth s = .next (raiseError .invalidF0 s))
      ∧ (s.busy = false → validF0 s.f0In = true → (∃ x ∈ s.specIn, Fp.isNaN x = true ∨ x = Fp.posInf) →
          exec .synth s = .next (raiseError .invalidSpectrum s))
      ∧ (s.busy = false → validF0 s.f0In = true → (∀ x ∈ s.specIn, Fp.isNaN x = false ∧ x ≠ Fp.posInf) →
          Fp.finite s.shiftIn = false → exec .synth s = .next (raiseError .invalidShift s))
      ∧ (s.busy = false → validF0 s.f0In = true → (∀ x ∈ s.specIn, Fp.isNaN x = false ∧ x ≠ Fp.posInf) →
          Fp.finite s.shiftIn = true →
          exec .synth s = .next { s with latch := some (.synth s.specIn s.f0In s.shiftIn), done := false })

/-- R229 with R191: INSTALL of a running block that is not busy puts IR_IN in as the newest filter, by the three cases of Install,
with a zero delay line (R192), and EXPORT_IR reads it; an IR with a value that is not finite is refused with INVALID_IR. A busy block
refuses it with BUSY, a stopped one with NOT_RUNNING. -/
def Obligations.InstallByOccupancy : Prop :=
  ∀ (s : State) (f : FilterSlot), f = { ir := s.irIn, dl := List.replicate s.cfg.fftSize Fp.zero } →
    (s.busy = true → exec .install s = .next (raiseError .busy s))
      ∧ (s.busy = false → s.running = false → exec .install s = .next (raiseError .notRunning s))
      ∧ (s.busy = false → s.running = true → (∃ x ∈ s.irIn, Fp.finite x = false) →
          exec .install s = .next (raiseError .invalidIr s))
      ∧ (s.busy = false → s.running = true → (∀ x ∈ s.irIn, Fp.finite x = true) →
          ∃ t, exec .install s = .next t ∧ t = { s with occ := t.occ } ∧ t.exportIr = s.irIn
            ∧ (s.occ = .empty → t.occ = .single f)
            ∧ (∀ a, s.occ = .single a → t.occ = .dual a f Fp.zero)
            ∧ (∀ o n p, s.occ = .dual o n p → t.occ = .dual n f Fp.zero))

/-- R231: SETFREQ of a running block that is not busy writes OSC_FREQ and keeps the phase, or refuses an f0 that is not finite and
above 0. A busy block refuses it with BUSY, a stopped one with NOT_RUNNING. -/
def Obligations.SetfreqWritesFrequency : Prop :=
  ∀ s : State,
    (s.busy = true → exec .setfreq s = .next (raiseError .busy s))
      ∧ (s.busy = false → s.running = false → exec .setfreq s = .next (raiseError .notRunning s))
      ∧ (s.busy = false → s.running = true → Fp.finite s.f0In = true → Fp.lt Fp.zero s.f0In = true →
          exec .setfreq s = .next { s with oscFreq := s.f0In })
      ∧ (s.busy = false → s.running = true → ¬ (Fp.finite s.f0In = true ∧ Fp.lt Fp.zero s.f0In = true) →
          exec .setfreq s = .next (raiseError .invalidF0 s))

/-- R232: CLRERR, in every state, clears ERR, ERR_CODE and AUDIO_FAULT and nothing else; and nothing but CLRERR and RESET clears a
recorded error. -/
def Obligations.ClrerrClearsRecord : Prop :=
  (∀ s : State, exec .clrerr s = .next { s with err := none, audioFault := false })
    ∧ ∀ s t : State, step s = .next t → s.err ≠ none → t.err = none →
        s.nextCommand = some .clrerr ∨ s.schedule.head? = some .reset

/-- The frame of every command, by location: a location that its rule does not write reads as before (R221 to R232, R293), and so
does every byte of it. -/
def Obligations.CommandsLeaveOtherLocations : Prop :=
  ∀ (i : Instr) (s t : State), exec i s = .next t →
    (∀ l, mayChange l i = false → readLoc t l = readLoc s l)
      ∧ (∀ addr, (∀ l, locate s.cfg (addr.toNat / 8 * 8) = some l → mayChange l i = false) → byteAt t addr = byteAt s addr)

/-! ### Who writes what -/

/-- R34, R36, R43, R72, R75, R169: each result register has its writers. OSC_FREQ changes only by START, SETFREQ and a FRAME job's
completion; the smoothed results only by PUSH and FRAME, the windows by these and START; IR_OUT only at a JOB_DONE; EXPORT_IR only at
INSTALL, START, STOP and a FRAME job's JOB_DONE, so no tick changes it; and RESET changes them all. -/
def Obligations.ResultWriters : Prop :=
  ∀ s t : State, step s = .next t → s.schedule.head? ≠ some .reset →
    (t.oscFreq ≠ s.oscFreq →
      s.nextCommand = some .start ∨ s.nextCommand = some .setfreq
        ∨ (s.schedule.head? = some .jobDone ∧ s.frameInFlight = true))
      ∧ ((t.smoF0 ≠ s.smoF0 ∨ t.specOut ≠ s.specOut) → s.nextCommand = some .push ∨ s.nextCommand = some (.frame true))
      ∧ ((t.sw ≠ s.sw ∨ t.fw ≠ s.fw) →
          s.nextCommand = some .push ∨ s.nextCommand = some (.frame true) ∨ s.nextCommand = some .start)
      ∧ (t.irOut ≠ s.irOut → s.schedule.head? = some .jobDone)
      ∧ (t.exportIr ≠ s.exportIr →
          s.nextCommand = some .install ∨ s.nextCommand = some .start ∨ s.nextCommand = some .stop
            ∨ (s.schedule.head? = some .jobDone ∧ s.frameInFlight = true))

/-- R29, R30, R161, R181, R302: RESET apart, the active configuration changes only by CONFIG in a stopped block, so the mode is fixed
for a whole session; the session state only by START and STOP; the edge state only by SAMPLE_TICK, START and STOP. -/
def Obligations.ControlWriters : Prop :=
  ∀ s t : State, step s = .next t → s.schedule.head? ≠ some .reset →
    ((t.actCfgWord ≠ s.actCfgWord ∨ t.actXstep ≠ s.actXstep ∨ t.mode ≠ s.mode) →
      s.running = false ∧ ∃ m a b, s.nextCommand = some (.config m a b))
      ∧ (t.running ≠ s.running → s.nextCommand = some .start ∨ s.nextCommand = some .stop)
      ∧ (t.edge ≠ s.edge →
          s.schedule.head? = some .sampleTick ∨ s.nextCommand = some .start ∨ s.nextCommand = some .stop)

/-! ### The events -/

/-- R274: SAMPLE_TICK of a stopped block puts out +0.0 and changes nothing else. -/
def Obligations.StoppedSampleIsSilent : Prop :=
  ∀ (s : State) (rest : List Event), s.schedule = .sampleTick :: rest → s.running = false →
    step s = .next { s with schedule := rest, audioOut := Fp.zero }

/-- R276, R277 with R270, for a running block with no filter: the phase advances by OSC_FREQ / FS and keeps the fraction of the sum, the
edge state advances, the pulse reaches no filter, and the output is +0.0. -/
def Obligations.EmptySampleIsSilent : Prop :=
  ∀ (s : State) (rest : List Event) (u : F64), s.schedule = .sampleTick :: rest → s.running = true → s.occ = .empty →
    u = Fp.add s.oscPhase (Fp.div s.oscFreq (Fp.ofNat s.cfg.sampleRate)) →
    step s = .next { s with
      schedule := rest, oscPhase := Fp.sub u (Fp.floor u), audioOut := Fp.zero
      edge := if Fp.lt s.oscPhase Fp.half then .high else .low }

/-- R276 with R194, R195, R270 and R271, for a running block with one filter: the square sample from the old phase, the phase's advance
by OSC_FREQ / FS to the fraction of the sum, the pulse, the convolution over the shifted delay line by ascending tap, and the output. With finite taps and a delay line of pulses the sum is never a
NaN, so the output is the sum itself. -/
def Obligations.SingleFilterSample : Prop :=
  ∀ (s : State) (rest : List Event) (a : FilterSlot) (square u x y : F64) (e : Edge) (d : List F64),
    s.Inv → s.schedule = .sampleTick :: rest → s.running = true → s.occ = .single a →
    square = (if Fp.lt s.oscPhase Fp.half then Fp.one else Fp.negOne) → (x, e) = pgStep s.edge square →
    u = Fp.add s.oscPhase (Fp.div s.oscFreq (Fp.ofNat s.cfg.sampleRate)) →
    d = x :: a.dl.take (s.cfg.fftSize - 1) →
    y = (List.range s.cfg.fftSize).foldl (fun acc k => Fp.add acc (Fp.mul (element a.ir k) (element d k))) Fp.zero →
    Fp.isNaN y = false
      ∧ step s = .next { s with
          schedule := rest, oscPhase := Fp.sub u (Fp.floor u), edge := e,
          occ := .single { ir := a.ir, dl := d }, audioOut := y }

/-- R276 with R193 to R195 and R270, for a running block with two filters: the phase advances by OSC_FREQ / FS to the fraction of the
sum, both take the same pulse, and the output is `go × y_o + gn × y_n`
with `gn = p × p` and `go = 1.0 - gn`. -/
def Obligations.DualFilterSample : Prop :=
  ∀ (s : State) (rest : List Event) (o n : FilterSlot) (p square u x y : F64) (e : Edge) (o' n' : FilterSlot),
    s.schedule = .sampleTick :: rest → s.running = true → s.occ = .dual o n p →
    square = (if Fp.lt s.oscPhase Fp.half then Fp.one else Fp.negOne) → (x, e) = pgStep s.edge square →
    u = Fp.add s.oscPhase (Fp.div s.oscFreq (Fp.ofNat s.cfg.sampleRate)) →
    o' = { ir := o.ir, dl := x :: o.dl.take (s.cfg.fftSize - 1) } →
    n' = { ir := n.ir, dl := x :: n.dl.take (s.cfg.fftSize - 1) } →
    y = Fp.add (Fp.mul (Fp.sub Fp.one (Fp.mul p p)) (filterOutput o')) (Fp.mul (Fp.mul p p) (filterOutput n')) →
    ∃ t, step s = .next t
      ∧ { t with audioOut := s.audioOut, draws := s.draws } = { s with
          schedule := rest, oscPhase := Fp.sub u (Fp.floor u), edge := e,
          occ := .dual o' n' p }
      ∧ (Fp.isNaN y = false → t.audioOut = y) ∧ (Fp.isNaN y = true → Fp.isNaN t.audioOut = true)

/-- R197: XFADE_TICK of a running block in Dual adds the active step to the progress, which XF_PROGRESS shows, and ends the crossfade
where the sum is at least 1.0, when XF_PROGRESS reads +0.0; in every other state it changes nothing. EXPORT_IR never changes. -/
def Obligations.CrossfadeTickRule : Prop :=
  ∀ (s : State) (rest : List Event), s.schedule = .xfadeTick :: rest →
    ∃ t, step s = .next t ∧ t = { s with schedule := rest, occ := t.occ } ∧ t.exportIr = s.exportIr
      ∧ (∀ o n p, s.running = true → s.occ = .dual o n p → Fp.le Fp.one (Fp.add p s.actXstep) = true →
          t.occ = .single n ∧ t.xfProgress = Fp.zero)
      ∧ (∀ o n p, s.running = true → s.occ = .dual o n p → Fp.le Fp.one (Fp.add p s.actXstep) = false →
          t.occ = .dual o n (Fp.add p s.actXstep) ∧ t.xfProgress = Fp.add p s.actXstep)
      ∧ ((s.running = false ∨ ∀ o n p, s.occ ≠ .dual o n p) → t.occ = s.occ)

/-- R235, R299: JOB_DONE is enabled exactly when the block is busy, and completes the job in flight. IR_OUT, the latch and DONE are
written for both kinds; a FRAME job with a finite result is installed and sets OSC_FREQ in the same step, and one with a result that is
not finite records INVALID_IR instead, if no error is recorded. A FRAME job is in flight only in a running block. -/
def Obligations.JobDoneRule : Prop :=
  ∀ (s : State) (rest : List Event), s.schedule = .jobDone :: rest →
    s.nextEnabled = s.busy ∧ (s.Inv → s.frameInFlight = true → s.running = true)
      ∧ (∀ spec f0 shift, s.latch = some (.synth spec f0 shift) →
          step s = .next { s with
            schedule := rest, irOut := synthesize s.cfg spec f0 shift, latch := none, done := true })
      ∧ (∀ spec f0 ir, s.latch = some (.frame spec f0) → ir = synthesize s.cfg spec f0 Fp.zero →
          step s = .next (
            if ∀ x ∈ ir, Fp.finite x = true then
              { s with
                schedule := rest, irOut := ir, latch := none, done := true, oscFreq := f0,
                occ := installInto { ir := ir, dl := List.replicate s.cfg.fftSize Fp.zero } s.occ }
            else
              { s with
                schedule := rest, irOut := ir, latch := none, done := true, err := some (s.err.getD .invalidIr) }))

/-- R234, R76: a job reads its latch alone. What the host writes to the operand locations while it is in flight changes nothing of
its completion. -/
def Obligations.JobIgnoresLaterOperands : Prop :=
  ∀ (s t : State) (rest : List Event) (spec ir : List F64) (f0 shift xstep : F64),
    s.schedule = .jobDone :: rest → step s = .next t →
    step { s with specIn := spec, irIn := ir, f0In := f0, shiftIn := shift, xstepIn := xstep }
      = .next { t with specIn := spec, irIn := ir, f0In := f0, shiftIn := shift, xstepIn := xstep }

/-- R300: AUDIO_FAULT sets its bit and nothing else; the bit stays until CLRERR or RESET, and no sample depends on it. -/
def Obligations.AudioFaultSetsBit : Prop :=
  (∀ (s : State) (rest : List Event), s.schedule = .audioFault :: rest →
      step s = .next { s with schedule := rest, audioFault := true })
    ∧ (∀ s t : State, step s = .next t → s.audioFault = true → t.audioFault = false →
        s.nextCommand = some .clrerr ∨ s.schedule.head? = some .reset)
    ∧ ∀ (s : State) (b : Bool), sampleTick { s with audioFault := b } = { sampleTick s with audioFault := b }

/-- R320: what RESET leaves, in any state: each register by its location, the internal state, and buffers of their lengths, of whose
unspecified elements nothing is said. -/
def Obligations.ResetLeavesTable : Prop :=
  ∀ (s : State) (rest : List Event), s.schedule = .reset :: rest →
    ∃ t, step s = .next t
      ∧ (∀ l ∈ [Loc.id0, .id1, .eps], readLoc t l = readLoc s l) ∧ t.cfg = s.cfg ∧ readLoc t .cmd = 0#64 ∧ readLoc t .status = 0#64 ∧ readLoc t .actCfg = 0x0000003200020100#64
      ∧ readLoc t .actXstep = 0x3F847AE147AE147B#64 ∧ readLoc t .xstepIn = 0x3F847AE147AE147B#64
      ∧ (∀ l ∈ [Loc.f0In, .shiftIn, .oscFreq, .oscPhase, .xfProgress, .smoF0, .audioOut, .winLen, .pgState],
          readLoc t l = 0#64)
      ∧ t.exportIr = List.replicate s.cfg.fftSize Fp.zero
      ∧ t.sw = [] ∧ t.fw = [] ∧ t.occ = .empty ∧ t.edge = .low ∧ t.latch = none ∧ t.running = false
      ∧ t.specIn.length = s.cfg.bins ∧ t.specOut.length = s.cfg.bins ∧ t.irIn.length = s.cfg.fftSize
      ∧ t.irOut.length = s.cfg.fftSize

/-- R322 with R320: the 17 registers and EXPORT_IR after power-up, as the host reads them. That its instance has the default parameters, so that ID0, ID1
and EPS read as they do, is the MODEL'S CHOICE (log entry 2). -/
def Obligations.PowerUpRegisters : Prop :=
  wordAt State.reset 0x00#32 = some 0x00001F4000000400#64 ∧ wordAt State.reset 0x08#32 = some 0x0000000000400040#64
    ∧ wordAt State.reset 0x10#32 = some 0x3D719799812DEA11#64 ∧ wordAt State.reset 0x18#32 = some 0#64
    ∧ wordAt State.reset 0x20#32 = some 0#64
    ∧ wordAt State.reset 0x28#32 = some 0x0000003200020100#64 ∧ wordAt State.reset 0x30#32 = some 0x3F847AE147AE147B#64
    ∧ wordAt State.reset 0x38#32 = some 0x3F847AE147AE147B#64
    ∧ (∀ a ∈ [0x40#32, 0x48#32, 0x50#32, 0x58#32, 0x60#32, 0x68#32, 0x70#32, 0x78#32, 0x80#32], wordAt State.reset a = some 0#64)
    ∧ (∀ i < 1024, wordAt State.reset (BitVec.ofNat 32 (0x50000 + 8 * i)) = some 0#64)

/-! ### Invariants -/

/-- Every step keeps the invariant, whatever the agents do (R30, R38, R42 to R47, R51, R235, R270, R274). That the windows are bounded
by their capacities only while a session runs is the model's reading (log entry 19). -/
def Obligations.StepKeepsInvariant : Prop :=
  ∀ s t : State, s.Inv → step s = .next t → t.Inv

/-- The invariant holds after a RESET of every instance, and of the machine after power-up. -/
def Obligations.ResetHasInvariant : Prop :=
  (∀ (c : Config) (draw : Nat), c.wf = true → (State.resetOf c draw).Inv) ∧ State.reset.Inv

/-- R39, R270: the phase stays in [0, 1) through every step. -/
def Obligations.PhaseStaysInUnitInterval : Prop :=
  ∀ s t : State, s.Inv → inUnitInterval s.oscPhase = true → step s = .next t → inUnitInterval t.oscPhase = true

/-! ### The sub-units' arithmetic -/

/-- R11 and 00_scope section 5: F64 addition, subtraction, multiplication and division of finite operands are correctly rounded, to
nearest with ties to even. The IEEE 754 cases beside: a zero sum or difference is -0.0 only of two zeros that are both negative addends;
a product or a quotient that is no NaN has the exclusive or of the operands' signs; a NaN operand gives a NaN; an infinity added to
anything but its opposite stays, and with it gives a NaN; an infinity times zero, an infinity by an infinity and zero by zero are NaN,
and otherwise an infinite factor, an infinite dividend or a zero divisor gives an infinity and an infinite divisor a zero. -/
def Obligations.ArithmeticIsCorrectlyRounded : Prop :=
  (∀ a b : F64, Fp.finite a = true → Fp.finite b = true →
      SynthRef.CorrectlyRounded (SynthRef.toReal a + SynthRef.toReal b) (Fp.add a b)
        ∧ SynthRef.CorrectlyRounded (SynthRef.toReal a - SynthRef.toReal b) (Fp.sub a b)
        ∧ SynthRef.CorrectlyRounded (SynthRef.toReal a * SynthRef.toReal b) (Fp.mul a b)
        ∧ (SynthRef.toReal b ≠ 0 → SynthRef.CorrectlyRounded (SynthRef.toReal a / SynthRef.toReal b) (Fp.div a b))
        ∧ (SynthRef.toReal a + SynthRef.toReal b = 0 → Fp.sign (Fp.add a b) = (Fp.sign a && Fp.sign b))
        ∧ (SynthRef.toReal a - SynthRef.toReal b = 0 → Fp.sign (Fp.sub a b) = (Fp.sign a && !Fp.sign b)))
    ∧ (∀ a b : F64,
        (Fp.isNaN (Fp.mul a b) = false → Fp.sign (Fp.mul a b) = (Fp.sign a != Fp.sign b))
          ∧ (Fp.isNaN (Fp.div a b) = false → Fp.sign (Fp.div a b) = (Fp.sign a != Fp.sign b))
          ∧ (Fp.isNaN a = true ∨ Fp.isNaN b = true →
              Fp.isNaN (Fp.add a b) = true ∧ Fp.isNaN (Fp.sub a b) = true ∧ Fp.isNaN (Fp.mul a b) = true
                ∧ Fp.isNaN (Fp.div a b) = true))
    ∧ (∀ a : F64, Fp.isNaN a = false →
        (a ≠ Fp.negInf → Fp.add Fp.posInf a = Fp.posInf ∧ Fp.add a Fp.posInf = Fp.posInf ∧ Fp.sub a Fp.negInf = Fp.posInf)
          ∧ (a ≠ Fp.posInf → Fp.add Fp.negInf a = Fp.negInf ∧ Fp.add a Fp.negInf = Fp.negInf ∧ Fp.sub a Fp.posInf = Fp.negInf
              ∧ Fp.sub Fp.posInf a = Fp.posInf)
          ∧ (a ≠ Fp.negInf → Fp.sub Fp.negInf a = Fp.negInf)
          ∧ ∀ i ∈ [Fp.posInf, Fp.negInf],
              (Fp.mag a = 0 → Fp.isNaN (Fp.mul i a) = true ∧ Fp.isNaN (Fp.mul a i) = true)
                ∧ (Fp.mag a ≠ 0 → Fp.isInf (Fp.mul i a) = true ∧ Fp.isInf (Fp.mul a i) = true)
                ∧ (Fp.isInf a = true → Fp.isNaN (Fp.div a i) = true)
                ∧ (Fp.finite a = true → Fp.isInf (Fp.div i a) = true ∧ Fp.mag (Fp.div a i) = 0))
    ∧ (Fp.isNaN (Fp.add Fp.posInf Fp.negInf) = true ∧ Fp.isNaN (Fp.add Fp.negInf Fp.posInf) = true
        ∧ Fp.isNaN (Fp.sub Fp.posInf Fp.posInf) = true ∧ Fp.isNaN (Fp.sub Fp.negInf Fp.negInf) = true)
    ∧ ∀ a z : F64, Fp.finite a = true → Fp.mag z = 0 →
        (Fp.mag a = 0 → Fp.isNaN (Fp.div a z) = true) ∧ (Fp.mag a ≠ 0 → Fp.isInf (Fp.div a z) = true)

/-- 00_scope section 5: the comparisons `<`, `≤` and `=` of finite values are those of the real numbers they stand for (`>` and `≥` are
`<` and `≤` with their operands exchanged), and any comparison with a NaN is false. -/
def Obligations.ComparisonsAreReal : Prop :=
  ∀ a b : F64,
    (Fp.finite a = true → Fp.finite b = true →
      (Fp.lt a b = true ↔ SynthRef.toReal a < SynthRef.toReal b) ∧ (Fp.le a b = true ↔ SynthRef.toReal a ≤ SynthRef.toReal b)
        ∧ (Fp.eq a b = true ↔ SynthRef.toReal a = SynthRef.toReal b))
      ∧ (Fp.isNaN a = true ∨ Fp.isNaN b = true → Fp.lt a b = false ∧ Fp.le a b = false ∧ Fp.eq a b = false)

/-- R270: of a finite value that is not negative, `floor` and the subtraction of it are exact. -/
def Obligations.FloorAndFractionAreExact : Prop :=
  ∀ t : F64, Fp.finite t = true → Fp.le Fp.zero t = true →
    SynthRef.toReal (Fp.floor t) = (⌊SynthRef.toReal t⌋ : ℝ)
      ∧ SynthRef.toReal (Fp.sub t (Fp.floor t)) = Int.fract (SynthRef.toReal t)

/-- R272, for the periods whose phases are all F64 values: where OSC_FREQ / FS is exactly `1 / 2^j`, j from 1 to 53, the phases from 0
are exactly `(k mod 2^j) / 2^j`; the square is +1.0 on the first half of each period's samples and -1.0 on the rest; and the pulse
generator, from Low, emits 1.0 on the first sample of every period and +0.0 on every other. R272 claims this for every j from 1 on; from
j = 54 on R270's F64 additions cannot give such phases, and that the model follows R270 there is the MODEL'S CHOICE (log entry 24). -/
def Obligations.PowerOfTwoPeriodIsExact : Prop :=
  ∀ (sampleRate j : Nat) (f : F64) (phase square : Nat → F64), 1 ≤ j → j ≤ 53 →
    Fp.finite (Fp.div f (Fp.ofNat sampleRate)) = true →
    SynthRef.toReal (Fp.div f (Fp.ofNat sampleRate)) = 1 / 2 ^ j →
    phase = afterSamples sampleRate f Fp.zero → square = (fun k => oscSample (phase k)) →
    (∀ k, SynthRef.toReal (phase k) = ((k % 2 ^ j : Nat) : ℝ) / 2 ^ j
        ∧ square k = if k % 2 ^ j < 2 ^ j / 2 then Fp.one else Fp.negOne)
      ∧ ∀ n, pulseTrain .low ((List.range n).map square)
          = (List.range n).map fun k => if k % 2 ^ j = 0 then Fp.one else Fp.zero

/-- R162: `pow10_impl` has the property Pow10Accurate, at every finite operand. That the sign bit of its result is clear is the model's
reading (log entry 6). -/
def Obligations.Pow10IsAccurate : Prop :=
  ∀ x : F64, Fp.finite x = true → SynthRef.Pow10AccurateAt x (pow10 x)

/-- R163, R164: what a push does to the windows. Truncating keeps the pushed element alone; Sliding keeps the newest elements, at
most the capacity and all of a shorter window. R165, R166: the smoothed spectrum is, at each bin, the mean over the new spectral window,
and the smoothed f0 the mean of the new f0 window: the sum from +0.0, oldest first, divided by the F64 of the length, which is exact. -/
def Obligations.WindowsAfterPush : Prop :=
  ∀ (s : State) (x : List F64) (f0 : F64) (r : Smoothed), r = smoothPush s x f0 →
    (s.mode = .truncating → r.sw = [x.map pow10] ∧ r.fw = [f0])
      ∧ (s.mode = .sliding →
          r.sw <:+ s.sw ++ [x.map pow10] ∧ r.sw.length = min s.specCap (s.sw.length + 1)
            ∧ r.fw <:+ s.fw ++ [f0] ∧ r.fw.length = min s.f0Cap (s.fw.length + 1))
      ∧ r.spec = (List.range s.cfg.bins).map (fun i =>
          Fp.div ((r.sw.map fun w => element w i).foldl (fun acc v => Fp.add acc v) Fp.zero) (Fp.ofNat r.sw.length))
      ∧ r.f0 = Fp.div (r.fw.foldl (fun acc v => Fp.add acc v) Fp.zero) (Fp.ofNat r.fw.length)
      ∧ ∀ n < 2 ^ 53, Fp.finite (Fp.ofNat n) = true ∧ SynthRef.toReal (Fp.ofNat n) = n

/-- R167: in single-shot mode a push of values whose powers are finite gives those very values, and pushing them again changes
nothing. -/
def Obligations.SingleShotIsIdempotent : Prop :=
  ∀ s : State, s.mode = .truncating → s.running = true → s.busy = false → s.specIn.length = s.cfg.bins →
    validF0 s.f0In = true → allFinite s.specIn = true → allFinite (s.specIn.map pow10) = true →
    ∃ t, exec .push s = .next t
      ∧ t = { s with
          sw := [s.specIn.map pow10], fw := [s.f0In], specOut := s.specIn.map pow10, smoF0 := s.f0In }
      ∧ exec .push t = .next t

/-- R180: the four transitions of the pulse generator; zeros and NaN are not above 0. -/
def Obligations.PulseTransitions : Prop :=
  ∀ x : F64,
    (Fp.lt Fp.zero x = true → pgStep .low x = (Fp.one, .high) ∧ pgStep .high x = (Fp.zero, .high))
      ∧ (Fp.lt Fp.zero x = false → pgStep .low x = (Fp.zero, .low) ∧ pgStep .high x = (Fp.zero, .low))
      ∧ (Fp.isNaN x = true ∨ Fp.mag x = 0 → Fp.lt Fp.zero x = false)

/-- R183: over any run of samples from Low, the outputs that are 1.0 are as many as the rising edges, a positive first sample being
one, and every other output is +0.0. So the first positive sample emits a pulse, as the first sample of a session does. -/
def Obligations.PulsesCountRisingEdges : Prop :=
  (∀ xs : List F64,
      (pulseTrain .low xs).count Fp.one = risingEdges false (xs.map (Fp.lt Fp.zero))
        ∧ ∀ y ∈ pulseTrain .low xs, y = Fp.one ∨ y = Fp.zero)
    ∧ (∀ (xs : List F64) (x : F64), (∀ y ∈ xs, Fp.lt Fp.zero y = false) → Fp.lt Fp.zero x = true →
        pulseTrain .low (xs ++ [x]) = List.replicate xs.length Fp.zero ++ [Fp.one])
    ∧ ∀ s t : State, s.busy = false → s.running = false → exec .start s = .next t → pulseOf t = Fp.one

/-- R198: from Dual with progress +0.0, ticks with nothing between them keep the left-fold sum of the step as the progress for as
long as that sum stays below 1.0, and the first sum that reaches 1.0 ends the crossfade. The rows are R198's: for the steps 0.01, 0.1,
0.25, 0.3, 0.5 and 1.0, how many ticks a crossfade takes, and the progress before the last; and the default step's progress after 25
and 50 ticks. -/
def Obligations.CrossfadeTickCount : Prop :=
  (∀ (s : State) (o n : FilterSlot), s.running = true → s.occ = .dual o n Fp.zero →
      ∀ k, (∀ j, 1 ≤ j → j ≤ k → Fp.le Fp.one (stepSum s.actXstep j) = false) →
        (afterTicks s k).occ = .dual o n (stepSum s.actXstep k)
          ∧ (Fp.le Fp.one (stepSum s.actXstep (k + 1)) = true → (afterTicks s (k + 1)).occ = .single n))
    ∧ (∀ row ∈ ([(0x3F847AE147AE147B#64, 99, 0x3FEFAE147AE147B4#64), (0x3FB999999999999A#64, 10, 0x3FEFFFFFFFFFFFFF#64),
          (0x3FD0000000000000#64, 3, 0x3FE8000000000000#64), (0x3FD3333333333333#64, 3, 0x3FECCCCCCCCCCCCC#64),
          (0x3FE0000000000000#64, 1, 0x3FE0000000000000#64), (0x3FF0000000000000#64, 0, 0#64)] : List (F64 × Nat × F64)),
        (∀ j ≤ row.2.1, Fp.le Fp.one (stepSum row.1 j) = false) ∧ stepSum row.1 row.2.1 = row.2.2
          ∧ Fp.le Fp.one (stepSum row.1 (row.2.1 + 1)) = true)
    ∧ stepSum 0x3F847AE147AE147B#64 25 = 0x3FD0000000000001#64 ∧ stepSum 0x3F847AE147AE147B#64 50 = 0x3FE0000000000002#64

/-- R199: as the progress rises within [0, 1], the incoming gain does not fall and the outgoing gain does not rise; and the gains at
0, 0.25, 0.5 and 1 are R199's. -/
def Obligations.GainsAreMonotone : Prop :=
  (∀ p q : F64, Fp.le Fp.zero p = true → Fp.le p q = true → Fp.le q Fp.one = true →
      Fp.le (gainIn p) (gainIn q) = true ∧ Fp.le (gainOut q) (gainOut p) = true)
    ∧ (gainIn Fp.zero, gainOut Fp.zero) = (Fp.zero, Fp.one)
    ∧ (gainIn 0x3FD0000000000000#64, gainOut 0x3FD0000000000000#64) = (0x3FB0000000000000#64, 0x3FEE000000000000#64)
    ∧ (gainIn Fp.half, gainOut Fp.half) = (0x3FD0000000000000#64, 0x3FE8000000000000#64)
    ∧ (gainIn Fp.one, gainOut Fp.one) = (Fp.one, Fp.zero)

/-- R200: two installs, the second before the first's crossfade completes, any ticks between them short of that, end, once the second's
crossfade completes, in the second filter alone, whatever there was before. EXPORT_IR reads the first from its install on, and the
second from its own. -/
def Obligations.PreemptionEndsInNewest : Prop :=
  ∀ (s u t : State) (a b : List F64) (m k : Nat), s.running = true →
    u = afterTicks (installFilter a s) m → t = installFilter b u →
    (∀ j, 1 ≤ j → j ≤ m → Fp.le Fp.one (stepSum s.actXstep j) = false) →
    (∀ j, 1 ≤ j → j ≤ k → Fp.le Fp.one (stepSum s.actXstep j) = false) →
    Fp.le Fp.one (stepSum s.actXstep (k + 1)) = true →
    (s.occ = .empty → u.occ = .single (newFilter s.cfg a))
      ∧ (∀ f, s.occ = .single f → u.occ = .dual f (newFilter s.cfg a) (stepSum s.actXstep m))
      ∧ (∀ o n p, s.occ = .dual o n p → u.occ = .dual n (newFilter s.cfg a) (stepSum s.actXstep m))
      ∧ u.exportIr = a ∧ t.exportIr = b ∧ t.occ = .dual (newFilter s.cfg a) (newFilter s.cfg b) Fp.zero
      ∧ (afterTicks t (k + 1)).occ = .single (newFilter s.cfg b) ∧ (afterTicks t (k + 1)).exportIr = b

/-! ### The synthesizer's reference value -/

/-- R131, R120: the hardware's result has exactly `L` values and, for operands a command accepts, is within SYNTH_TOL times the peak
of the reference where that peak is in range. SYNTH_TOL is not negative, and open (R9). For an f0 below about
4.5e-305, where R135, R227 and R299 say that a result can be not finite, the clause still holds: that the model follows R131 there is the
MODEL'S CHOICE (log entry 23). -/
def Obligations.SynthesisIsAccurate : Prop :=
  (∀ (c : Config) (spec : List F64) (f0 shift : F64), (synthesize c spec f0 shift).length = c.fftSize)
    ∧ 0 ≤ SynthRef.synthTol
    ∧ SynthRef.SynthAccurate SynthRef.synthTol (fun c spec f0 shift n => element (synthesize c spec f0 shift) n)

/-- R133: a flat spectrum of power `a`, with no shift, has the reference `√(a + ε) · √(FS / f0)` at index H and 0 at every other. -/
def Obligations.FlatSpectrumReference : Prop :=
  ∀ (c : Config) (spec : List F64) (f0 a : F64), c.wf = true → validF0 f0 = true → Fp.finite a = true →
    Fp.le Fp.zero a = true → spec = List.replicate c.bins a →
    ∀ n < c.fftSize, SynthRef.synthRef c spec f0 Fp.zero n =
      if n = c.half then
        Real.sqrt (SynthRef.toReal a + SynthRef.toReal c.eps) * Real.sqrt (c.sampleRate / SynthRef.toReal f0)
      else 0

/-- R125: the minimum-phase half-spectrum has exactly the magnitude `√(u[i] + ε)`. -/
def Obligations.MinimumPhaseKeepsMagnitude : Prop :=
  ∀ (c : Config) (spec : List F64) (i : Nat), c.wf = true → i ≤ c.half →
    ‖SynthRef.halfSpectrum c spec i‖ = Real.sqrt (SynthRef.power c spec i + SynthRef.toReal c.eps)

/-- R134: with the spectrum and EPS both scaled by `α > 0`, the reference scales by `√α`. A spectrum here has finite values and
-infinity, which counts as 0 (R122) and stays as it is when scaled. -/
def Obligations.EnergyScaling : Prop :=
  ∀ (c : Config) (spec spec' : List F64) (eps' f0 shift : F64) (α : ℝ), c.wf = true → 0 < α →
    Fp.finite eps' = true → SynthRef.toReal eps' = α * SynthRef.toReal c.eps →
    spec.length = c.bins → spec'.length = c.bins →
    (∀ i < c.bins,
      (element spec i = Fp.negInf ∧ element spec' i = Fp.negInf)
        ∨ (Fp.finite (element spec i) = true ∧ Fp.finite (element spec' i) = true
            ∧ SynthRef.toReal (element spec' i) = α * SynthRef.toReal (element spec i))) →
    ∀ n < c.fftSize,
      SynthRef.synthRef { c with eps := eps' } spec' f0 shift n = Real.sqrt α * SynthRef.synthRef c spec f0 shift n
end

