-- ==== Sys2Proof/Laws/F64.lean ====
section
/-! SUPPORT. The representation of an F64: sign bit and magnitude bits determine it, and the classes are ranges of the magnitude. -/

namespace Sys2Proof.Fp

/-- The magnitude has 63 bits. -/
theorem mag_lt (x : F64) : mag x < 2 ^ 63 := Nat.mod_lt _ (by decide)

/-- The sign bit is the top bit of the number. -/
theorem sign_eq (x : F64) : sign x = decide (2 ^ 63 ≤ x.toNat) := by
  simp [sign, BitVec.msb_eq_decide]

/-- The number of the word that a sign and a magnitude make. -/
theorem pack_toNat {b : Bool} {m : Nat} (h : m < 2 ^ 63) : (pack b m).toNat = (if b then 2 ^ 63 else 0) + m := by
  cases b <;> simp only [pack, BitVec.toNat_ofNat, if_true, Bool.false_eq_true, if_false] <;> omega

/-- The sign of a packed word. -/
@[simp] theorem sign_pack {b : Bool} {m : Nat} (h : m < 2 ^ 63) : sign (pack b m) = b := by
  rw [sign_eq, pack_toNat h]
  cases b
  · simpa using h
  · simp

/-- The magnitude of a packed word. -/
@[simp] theorem mag_pack {b : Bool} {m : Nat} (h : m < 2 ^ 63) : mag (pack b m) = m := by
  rw [mag, pack_toNat h]
  cases b <;> simp <;> omega

/-- A word is its sign and its magnitude. -/
theorem pack_sign_mag (x : F64) : pack (sign x) (mag x) = x := by
  apply BitVec.eq_of_toNat_eq
  rw [pack_toNat (mag_lt x), sign_eq, mag]
  have := x.isLt
  by_cases h : 2 ^ 63 ≤ x.toNat <;> simp only [h, decide_true, decide_false, if_true, Bool.false_eq_true, if_false] <;> omega

/-- Two words with one sign and one magnitude are equal. -/
theorem ext_sign_mag {x y : F64} (hs : sign x = sign y) (hm : mag x = mag y) : x = y := by
  rw [← pack_sign_mag x, ← pack_sign_mag y, hs, hm]

/-- Every value is finite, an infinity or a NaN. -/
theorem finite_or_inf_or_nan (x : F64) : finite x = true ∨ isInf x = true ∨ isNaN x = true := by
  simp only [finite, isInf, isNaN, decide_eq_true_eq]
  omega

/-- A finite value is no NaN. -/
theorem not_nan_of_finite {x : F64} (h : finite x = true) : isNaN x = false := by
  simp only [finite, isNaN, decide_eq_true_eq, decide_eq_false_iff_not] at h ⊢
  omega

/-- A finite value is no infinity. -/
theorem not_inf_of_finite {x : F64} (h : finite x = true) : isInf x = false := by
  simp only [finite, isInf, decide_eq_true_eq, decide_eq_false_iff_not] at h ⊢
  omega

/-- What `nanOf` makes is a NaN. -/
theorem nanOf_isNaN (b : BitVec 53) : isNaN (nanOf b) = true := by
  have hp : b.toNat % 2 ^ 52 < 2 ^ 52 := Nat.mod_lt _ (by decide)
  have hi : infMag = 0x7FF0000000000000 := by decide
  have hlt : infMag + (if b.toNat % 2 ^ 52 = 0 then 2 ^ 51 else b.toNat % 2 ^ 52) < 2 ^ 63 := by
    rw [hi]; split <;> omega
  simp only [nanOf, isNaN, mag_pack hlt, decide_eq_true_eq]
  split <;> omega

/-- The magnitude `round` gives is at most an infinity's, so it is never a NaN. -/
theorem round_not_nan (b : Bool) (n d : Nat) : isNaN (round b n d) = false := by
  have hi : infMag = 0x7FF0000000000000 := by decide
  have hlt : min (roundMag n d) infMag < 2 ^ 63 := by omega
  simp only [round, isNaN, mag_pack hlt, decide_eq_false_iff_not]
  omega

end Sys2Proof.Fp
end

