-- ==== Sys2Proof/Laws/State.lean ====
section
/-! SUPPORT. What each named update of the state does to each field, one lemma for each, so that no proof unfolds an update. -/

namespace Sys2Proof.Machine

@[simp] theorem raiseError_cmd (e : ErrCode) (s : State) : (raiseError e s).cmd = s.cmd := rfl
@[simp] theorem raiseError_running (e : ErrCode) (s : State) : (raiseError e s).running = s.running := rfl
@[simp] theorem raiseError_err (e : ErrCode) (s : State) : (raiseError e s).err = some (s.err.getD e) := rfl
@[simp] theorem raiseError_audioFault (e : ErrCode) (s : State) : (raiseError e s).audioFault = s.audioFault := rfl
@[simp] theorem raiseError_done (e : ErrCode) (s : State) : (raiseError e s).done = s.done := rfl
@[simp] theorem raiseError_mode (e : ErrCode) (s : State) : (raiseError e s).mode = s.mode := rfl
@[simp] theorem raiseError_specCap (e : ErrCode) (s : State) : (raiseError e s).specCap = s.specCap := rfl
@[simp] theorem raiseError_f0Cap (e : ErrCode) (s : State) : (raiseError e s).f0Cap = s.f0Cap := rfl
@[simp] theorem raiseError_actXstep (e : ErrCode) (s : State) : (raiseError e s).actXstep = s.actXstep := rfl
@[simp] theorem raiseError_xstepIn (e : ErrCode) (s : State) : (raiseError e s).xstepIn = s.xstepIn := rfl
@[simp] theorem raiseError_f0In (e : ErrCode) (s : State) : (raiseError e s).f0In = s.f0In := rfl
@[simp] theorem raiseError_shiftIn (e : ErrCode) (s : State) : (raiseError e s).shiftIn = s.shiftIn := rfl
@[simp] theorem raiseError_oscFreq (e : ErrCode) (s : State) : (raiseError e s).oscFreq = s.oscFreq := rfl
@[simp] theorem raiseError_oscPhase (e : ErrCode) (s : State) : (raiseError e s).oscPhase = s.oscPhase := rfl
@[simp] theorem raiseError_smoF0 (e : ErrCode) (s : State) : (raiseError e s).smoF0 = s.smoF0 := rfl
@[simp] theorem raiseError_audioOut (e : ErrCode) (s : State) : (raiseError e s).audioOut = s.audioOut := rfl
@[simp] theorem raiseError_edge (e : ErrCode) (s : State) : (raiseError e s).edge = s.edge := rfl
@[simp] theorem raiseError_specIn (e : ErrCode) (s : State) : (raiseError e s).specIn = s.specIn := rfl
@[simp] theorem raiseError_specOut (e : ErrCode) (s : State) : (raiseError e s).specOut = s.specOut := rfl
@[simp] theorem raiseError_irIn (e : ErrCode) (s : State) : (raiseError e s).irIn = s.irIn := rfl
@[simp] theorem raiseError_irOut (e : ErrCode) (s : State) : (raiseError e s).irOut = s.irOut := rfl
@[simp] theorem raiseError_sw (e : ErrCode) (s : State) : (raiseError e s).sw = s.sw := rfl
@[simp] theorem raiseError_fw (e : ErrCode) (s : State) : (raiseError e s).fw = s.fw := rfl
@[simp] theorem raiseError_occ (e : ErrCode) (s : State) : (raiseError e s).occ = s.occ := rfl
@[simp] theorem raiseError_latch (e : ErrCode) (s : State) : (raiseError e s).latch = s.latch := rfl
@[simp] theorem raiseError_cfg (e : ErrCode) (s : State) : (raiseError e s).cfg = s.cfg := rfl
@[simp] theorem raiseError_schedule (e : ErrCode) (s : State) : (raiseError e s).schedule = s.schedule := rfl
@[simp] theorem raiseError_response (e : ErrCode) (s : State) : (raiseError e s).response = s.response := rfl
@[simp] theorem raiseError_draws (e : ErrCode) (s : State) : (raiseError e s).draws = s.draws := rfl

@[simp] theorem clearErrors_cmd (s : State) : (clearErrors s).cmd = s.cmd := rfl
@[simp] theorem clearErrors_running (s : State) : (clearErrors s).running = s.running := rfl
@[simp] theorem clearErrors_err (s : State) : (clearErrors s).err = none := rfl
@[simp] theorem clearErrors_audioFault (s : State) : (clearErrors s).audioFault = false := rfl
@[simp] theorem clearErrors_done (s : State) : (clearErrors s).done = s.done := rfl
@[simp] theorem clearErrors_mode (s : State) : (clearErrors s).mode = s.mode := rfl
@[simp] theorem clearErrors_specCap (s : State) : (clearErrors s).specCap = s.specCap := rfl
@[simp] theorem clearErrors_f0Cap (s : State) : (clearErrors s).f0Cap = s.f0Cap := rfl
@[simp] theorem clearErrors_actXstep (s : State) : (clearErrors s).actXstep = s.actXstep := rfl
@[simp] theorem clearErrors_xstepIn (s : State) : (clearErrors s).xstepIn = s.xstepIn := rfl
@[simp] theorem clearErrors_f0In (s : State) : (clearErrors s).f0In = s.f0In := rfl
@[simp] theorem clearErrors_shiftIn (s : State) : (clearErrors s).shiftIn = s.shiftIn := rfl
@[simp] theorem clearErrors_oscFreq (s : State) : (clearErrors s).oscFreq = s.oscFreq := rfl
@[simp] theorem clearErrors_oscPhase (s : State) : (clearErrors s).oscPhase = s.oscPhase := rfl
@[simp] theorem clearErrors_smoF0 (s : State) : (clearErrors s).smoF0 = s.smoF0 := rfl
@[simp] theorem clearErrors_audioOut (s : State) : (clearErrors s).audioOut = s.audioOut := rfl
@[simp] theorem clearErrors_edge (s : State) : (clearErrors s).edge = s.edge := rfl
@[simp] theorem clearErrors_specIn (s : State) : (clearErrors s).specIn = s.specIn := rfl
@[simp] theorem clearErrors_specOut (s : State) : (clearErrors s).specOut = s.specOut := rfl
@[simp] theorem clearErrors_irIn (s : State) : (clearErrors s).irIn = s.irIn := rfl
@[simp] theorem clearErrors_irOut (s : State) : (clearErrors s).irOut = s.irOut := rfl
@[simp] theorem clearErrors_sw (s : State) : (clearErrors s).sw = s.sw := rfl
@[simp] theorem clearErrors_fw (s : State) : (clearErrors s).fw = s.fw := rfl
@[simp] theorem clearErrors_occ (s : State) : (clearErrors s).occ = s.occ := rfl
@[simp] theorem clearErrors_latch (s : State) : (clearErrors s).latch = s.latch := rfl
@[simp] theorem clearErrors_cfg (s : State) : (clearErrors s).cfg = s.cfg := rfl
@[simp] theorem clearErrors_schedule (s : State) : (clearErrors s).schedule = s.schedule := rfl
@[simp] theorem clearErrors_response (s : State) : (clearErrors s).response = s.response := rfl
@[simp] theorem clearErrors_draws (s : State) : (clearErrors s).draws = s.draws := rfl

@[simp] theorem startSession_cmd (s : State) : (startSession s).cmd = s.cmd := rfl
@[simp] theorem startSession_running (s : State) : (startSession s).running = true := rfl
@[simp] theorem startSession_err (s : State) : (startSession s).err = s.err := rfl
@[simp] theorem startSession_audioFault (s : State) : (startSession s).audioFault = s.audioFault := rfl
@[simp] theorem startSession_done (s : State) : (startSession s).done = s.done := rfl
@[simp] theorem startSession_mode (s : State) : (startSession s).mode = s.mode := rfl
@[simp] theorem startSession_specCap (s : State) : (startSession s).specCap = s.specCap := rfl
@[simp] theorem startSession_f0Cap (s : State) : (startSession s).f0Cap = s.f0Cap := rfl
@[simp] theorem startSession_actXstep (s : State) : (startSession s).actXstep = s.actXstep := rfl
@[simp] theorem startSession_xstepIn (s : State) : (startSession s).xstepIn = s.xstepIn := rfl
@[simp] theorem startSession_f0In (s : State) : (startSession s).f0In = s.f0In := rfl
@[simp] theorem startSession_shiftIn (s : State) : (startSession s).shiftIn = s.shiftIn := rfl
@[simp] theorem startSession_oscFreq (s : State) : (startSession s).oscFreq = Fp.zero := rfl
@[simp] theorem startSession_oscPhase (s : State) : (startSession s).oscPhase = Fp.zero := rfl
@[simp] theorem startSession_smoF0 (s : State) : (startSession s).smoF0 = s.smoF0 := rfl
@[simp] theorem startSession_audioOut (s : State) : (startSession s).audioOut = s.audioOut := rfl
@[simp] theorem startSession_edge (s : State) : (startSession s).edge = .low := rfl
@[simp] theorem startSession_specIn (s : State) : (startSession s).specIn = s.specIn := rfl
@[simp] theorem startSession_specOut (s : State) : (startSession s).specOut = s.specOut := rfl
@[simp] theorem startSession_irIn (s : State) : (startSession s).irIn = s.irIn := rfl
@[simp] theorem startSession_irOut (s : State) : (startSession s).irOut = s.irOut := rfl
@[simp] theorem startSession_sw (s : State) : (startSession s).sw = [] := rfl
@[simp] theorem startSession_fw (s : State) : (startSession s).fw = [] := rfl
@[simp] theorem startSession_occ (s : State) : (startSession s).occ = .empty := rfl
@[simp] theorem startSession_latch (s : State) : (startSession s).latch = s.latch := rfl
@[simp] theorem startSession_cfg (s : State) : (startSession s).cfg = s.cfg := rfl
@[simp] theorem startSession_schedule (s : State) : (startSession s).schedule = s.schedule := rfl
@[simp] theorem startSession_response (s : State) : (startSession s).response = s.response := rfl
@[simp] theorem startSession_draws (s : State) : (startSession s).draws = s.draws := rfl

@[simp] theorem stopSession_cmd (s : State) : (stopSession s).cmd = s.cmd := rfl
@[simp] theorem stopSession_running (s : State) : (stopSession s).running = false := rfl
@[simp] theorem stopSession_err (s : State) : (stopSession s).err = s.err := rfl
@[simp] theorem stopSession_audioFault (s : State) : (stopSession s).audioFault = s.audioFault := rfl
@[simp] theorem stopSession_done (s : State) : (stopSession s).done = s.done := rfl
@[simp] theorem stopSession_mode (s : State) : (stopSession s).mode = s.mode := rfl
@[simp] theorem stopSession_specCap (s : State) : (stopSession s).specCap = s.specCap := rfl
@[simp] theorem stopSession_f0Cap (s : State) : (stopSession s).f0Cap = s.f0Cap := rfl
@[simp] theorem stopSession_actXstep (s : State) : (stopSession s).actXstep = s.actXstep := rfl
@[simp] theorem stopSession_xstepIn (s : State) : (stopSession s).xstepIn = s.xstepIn := rfl
@[simp] theorem stopSession_f0In (s : State) : (stopSession s).f0In = s.f0In := rfl
@[simp] theorem stopSession_shiftIn (s : State) : (stopSession s).shiftIn = s.shiftIn := rfl
@[simp] theorem stopSession_oscFreq (s : State) : (stopSession s).oscFreq = s.oscFreq := rfl
@[simp] theorem stopSession_oscPhase (s : State) : (stopSession s).oscPhase = s.oscPhase := rfl
@[simp] theorem stopSession_smoF0 (s : State) : (stopSession s).smoF0 = s.smoF0 := rfl
@[simp] theorem stopSession_audioOut (s : State) : (stopSession s).audioOut = s.audioOut := rfl
@[simp] theorem stopSession_edge (s : State) : (stopSession s).edge = if s.running then .low else s.edge := rfl
@[simp] theorem stopSession_specIn (s : State) : (stopSession s).specIn = s.specIn := rfl
@[simp] theorem stopSession_specOut (s : State) : (stopSession s).specOut = s.specOut := rfl
@[simp] theorem stopSession_irIn (s : State) : (stopSession s).irIn = s.irIn := rfl
@[simp] theorem stopSession_irOut (s : State) : (stopSession s).irOut = s.irOut := rfl
@[simp] theorem stopSession_sw (s : State) : (stopSession s).sw = s.sw := rfl
@[simp] theorem stopSession_fw (s : State) : (stopSession s).fw = s.fw := rfl
@[simp] theorem stopSession_occ (s : State) : (stopSession s).occ = if s.running then .empty else s.occ := rfl
@[simp] theorem stopSession_latch (s : State) : (stopSession s).latch = none := rfl
@[simp] theorem stopSession_cfg (s : State) : (stopSession s).cfg = s.cfg := rfl
@[simp] theorem stopSession_schedule (s : State) : (stopSession s).schedule = s.schedule := rfl
@[simp] theorem stopSession_response (s : State) : (stopSession s).response = s.response := rfl
@[simp] theorem stopSession_draws (s : State) : (stopSession s).draws = s.draws := rfl

@[simp] theorem setConfig_cmd (m : SmoothMode) (a b : Nat) (x : F64) (s : State) : (setConfig m a b x s).cmd = s.cmd := rfl
@[simp] theorem setConfig_running (m : SmoothMode) (a b : Nat) (x : F64) (s : State) : (setConfig m a b x s).running = s.running := rfl
@[simp] theorem setConfig_err (m : SmoothMode) (a b : Nat) (x : F64) (s : State) : (setConfig m a b x s).err = s.err := rfl
@[simp] theorem setConfig_audioFault (m : SmoothMode) (a b : Nat) (x : F64) (s : State) : (setConfig m a b x s).audioFault = s.audioFault := rfl
@[simp] theorem setConfig_done (m : SmoothMode) (a b : Nat) (x : F64) (s : State) : (setConfig m a b x s).done = s.done := rfl
@[simp] theorem setConfig_mode (m : SmoothMode) (a b : Nat) (x : F64) (s : State) : (setConfig m a b x s).mode = m := rfl
@[simp] theorem setConfig_specCap (m : SmoothMode) (a b : Nat) (x : F64) (s : State) : (setConfig m a b x s).specCap = a := rfl
@[simp] theorem setConfig_f0Cap (m : SmoothMode) (a b : Nat) (x : F64) (s : State) : (setConfig m a b x s).f0Cap = b := rfl
@[simp] theorem setConfig_actXstep (m : SmoothMode) (a b : Nat) (x : F64) (s : State) : (setConfig m a b x s).actXstep = x := rfl
@[simp] theorem setConfig_xstepIn (m : SmoothMode) (a b : Nat) (x : F64) (s : State) : (setConfig m a b x s).xstepIn = s.xstepIn := rfl
@[simp] theorem setConfig_f0In (m : SmoothMode) (a b : Nat) (x : F64) (s : State) : (setConfig m a b x s).f0In = s.f0In := rfl
@[simp] theorem setConfig_shiftIn (m : SmoothMode) (a b : Nat) (x : F64) (s : State) : (setConfig m a b x s).shiftIn = s.shiftIn := rfl
@[simp] theorem setConfig_oscFreq (m : SmoothMode) (a b : Nat) (x : F64) (s : State) : (setConfig m a b x s).oscFreq = s.oscFreq := rfl
@[simp] theorem setConfig_oscPhase (m : SmoothMode) (a b : Nat) (x : F64) (s : State) : (setConfig m a b x s).oscPhase = s.oscPhase := rfl
@[simp] theorem setConfig_smoF0 (m : SmoothMode) (a b : Nat) (x : F64) (s : State) : (setConfig m a b x s).smoF0 = s.smoF0 := rfl
@[simp] theorem setConfig_audioOut (m : SmoothMode) (a b : Nat) (x : F64) (s : State) : (setConfig m a b x s).audioOut = s.audioOut := rfl
@[simp] theorem setConfig_edge (m : SmoothMode) (a b : Nat) (x : F64) (s : State) : (setConfig m a b x s).edge = s.edge := rfl
@[simp] theorem setConfig_specIn (m : SmoothMode) (a b : Nat) (x : F64) (s : State) : (setConfig m a b x s).specIn = s.specIn := rfl
@[simp] theorem setConfig_specOut (m : SmoothMode) (a b : Nat) (x : F64) (s : State) : (setConfig m a b x s).specOut = s.specOut := rfl
@[simp] theorem setConfig_irIn (m : SmoothMode) (a b : Nat) (x : F64) (s : State) : (setConfig m a b x s).irIn = s.irIn := rfl
@[simp] theorem setConfig_irOut (m : SmoothMode) (a b : Nat) (x : F64) (s : State) : (setConfig m a b x s).irOut = s.irOut := rfl
@[simp] theorem setConfig_sw (m : SmoothMode) (a b : Nat) (x : F64) (s : State) : (setConfig m a b x s).sw = s.sw := rfl
@[simp] theorem setConfig_fw (m : SmoothMode) (a b : Nat) (x : F64) (s : State) : (setConfig m a b x s).fw = s.fw := rfl
@[simp] theorem setConfig_occ (m : SmoothMode) (a b : Nat) (x : F64) (s : State) : (setConfig m a b x s).occ = s.occ := rfl
@[simp] theorem setConfig_latch (m : SmoothMode) (a b : Nat) (x : F64) (s : State) : (setConfig m a b x s).latch = s.latch := rfl
@[simp] theorem setConfig_cfg (m : SmoothMode) (a b : Nat) (x : F64) (s : State) : (setConfig m a b x s).cfg = s.cfg := rfl
@[simp] theorem setConfig_schedule (m : SmoothMode) (a b : Nat) (x : F64) (s : State) : (setConfig m a b x s).schedule = s.schedule := rfl
@[simp] theorem setConfig_response (m : SmoothMode) (a b : Nat) (x : F64) (s : State) : (setConfig m a b x s).response = s.response := rfl
@[simp] theorem setConfig_draws (m : SmoothMode) (a b : Nat) (x : F64) (s : State) : (setConfig m a b x s).draws = s.draws := rfl

@[simp] theorem latchJob_cmd (j : Job) (s : State) : (latchJob j s).cmd = s.cmd := rfl
@[simp] theorem latchJob_running (j : Job) (s : State) : (latchJob j s).running = s.running := rfl
@[simp] theorem latchJob_err (j : Job) (s : State) : (latchJob j s).err = s.err := rfl
@[simp] theorem latchJob_audioFault (j : Job) (s : State) : (latchJob j s).audioFault = s.audioFault := rfl
@[simp] theorem latchJob_done (j : Job) (s : State) : (latchJob j s).done = false := rfl
@[simp] theorem latchJob_mode (j : Job) (s : State) : (latchJob j s).mode = s.mode := rfl
@[simp] theorem latchJob_specCap (j : Job) (s : State) : (latchJob j s).specCap = s.specCap := rfl
@[simp] theorem latchJob_f0Cap (j : Job) (s : State) : (latchJob j s).f0Cap = s.f0Cap := rfl
@[simp] theorem latchJob_actXstep (j : Job) (s : State) : (latchJob j s).actXstep = s.actXstep := rfl
@[simp] theorem latchJob_xstepIn (j : Job) (s : State) : (latchJob j s).xstepIn = s.xstepIn := rfl
@[simp] theorem latchJob_f0In (j : Job) (s : State) : (latchJob j s).f0In = s.f0In := rfl
@[simp] theorem latchJob_shiftIn (j : Job) (s : State) : (latchJob j s).shiftIn = s.shiftIn := rfl
@[simp] theorem latchJob_oscFreq (j : Job) (s : State) : (latchJob j s).oscFreq = s.oscFreq := rfl
@[simp] theorem latchJob_oscPhase (j : Job) (s : State) : (latchJob j s).oscPhase = s.oscPhase := rfl
@[simp] theorem latchJob_smoF0 (j : Job) (s : State) : (latchJob j s).smoF0 = s.smoF0 := rfl
@[simp] theorem latchJob_audioOut (j : Job) (s : State) : (latchJob j s).audioOut = s.audioOut := rfl
@[simp] theorem latchJob_edge (j : Job) (s : State) : (latchJob j s).edge = s.edge := rfl
@[simp] theorem latchJob_specIn (j : Job) (s : State) : (latchJob j s).specIn = s.specIn := rfl
@[simp] theorem latchJob_specOut (j : Job) (s : State) : (latchJob j s).specOut = s.specOut := rfl
@[simp] theorem latchJob_irIn (j : Job) (s : State) : (latchJob j s).irIn = s.irIn := rfl
@[simp] theorem latchJob_irOut (j : Job) (s : State) : (latchJob j s).irOut = s.irOut := rfl
@[simp] theorem latchJob_sw (j : Job) (s : State) : (latchJob j s).sw = s.sw := rfl
@[simp] theorem latchJob_fw (j : Job) (s : State) : (latchJob j s).fw = s.fw := rfl
@[simp] theorem latchJob_occ (j : Job) (s : State) : (latchJob j s).occ = s.occ := rfl
@[simp] theorem latchJob_latch (j : Job) (s : State) : (latchJob j s).latch = some j := rfl
@[simp] theorem latchJob_cfg (j : Job) (s : State) : (latchJob j s).cfg = s.cfg := rfl
@[simp] theorem latchJob_schedule (j : Job) (s : State) : (latchJob j s).schedule = s.schedule := rfl
@[simp] theorem latchJob_response (j : Job) (s : State) : (latchJob j s).response = s.response := rfl
@[simp] theorem latchJob_draws (j : Job) (s : State) : (latchJob j s).draws = s.draws := rfl

@[simp] theorem finishJob_cmd (ir : List F64) (s : State) : (finishJob ir s).cmd = s.cmd := rfl
@[simp] theorem finishJob_running (ir : List F64) (s : State) : (finishJob ir s).running = s.running := rfl
@[simp] theorem finishJob_err (ir : List F64) (s : State) : (finishJob ir s).err = s.err := rfl
@[simp] theorem finishJob_audioFault (ir : List F64) (s : State) : (finishJob ir s).audioFault = s.audioFault := rfl
@[simp] theorem finishJob_done (ir : List F64) (s : State) : (finishJob ir s).done = true := rfl
@[simp] theorem finishJob_mode (ir : List F64) (s : State) : (finishJob ir s).mode = s.mode := rfl
@[simp] theorem finishJob_specCap (ir : List F64) (s : State) : (finishJob ir s).specCap = s.specCap := rfl
@[simp] theorem finishJob_f0Cap (ir : List F64) (s : State) : (finishJob ir s).f0Cap = s.f0Cap := rfl
@[simp] theorem finishJob_actXstep (ir : List F64) (s : State) : (finishJob ir s).actXstep = s.actXstep := rfl
@[simp] theorem finishJob_xstepIn (ir : List F64) (s : State) : (finishJob ir s).xstepIn = s.xstepIn := rfl
@[simp] theorem finishJob_f0In (ir : List F64) (s : State) : (finishJob ir s).f0In = s.f0In := rfl
@[simp] theorem finishJob_shiftIn (ir : List F64) (s : State) : (finishJob ir s).shiftIn = s.shiftIn := rfl
@[simp] theorem finishJob_oscFreq (ir : List F64) (s : State) : (finishJob ir s).oscFreq = s.oscFreq := rfl
@[simp] theorem finishJob_oscPhase (ir : List F64) (s : State) : (finishJob ir s).oscPhase = s.oscPhase := rfl
@[simp] theorem finishJob_smoF0 (ir : List F64) (s : State) : (finishJob ir s).smoF0 = s.smoF0 := rfl
@[simp] theorem finishJob_audioOut (ir : List F64) (s : State) : (finishJob ir s).audioOut = s.audioOut := rfl
@[simp] theorem finishJob_edge (ir : List F64) (s : State) : (finishJob ir s).edge = s.edge := rfl
@[simp] theorem finishJob_specIn (ir : List F64) (s : State) : (finishJob ir s).specIn = s.specIn := rfl
@[simp] theorem finishJob_specOut (ir : List F64) (s : State) : (finishJob ir s).specOut = s.specOut := rfl
@[simp] theorem finishJob_irIn (ir : List F64) (s : State) : (finishJob ir s).irIn = s.irIn := rfl
@[simp] theorem finishJob_irOut (ir : List F64) (s : State) : (finishJob ir s).irOut = ir := rfl
@[simp] theorem finishJob_sw (ir : List F64) (s : State) : (finishJob ir s).sw = s.sw := rfl
@[simp] theorem finishJob_fw (ir : List F64) (s : State) : (finishJob ir s).fw = s.fw := rfl
@[simp] theorem finishJob_occ (ir : List F64) (s : State) : (finishJob ir s).occ = s.occ := rfl
@[simp] theorem finishJob_latch (ir : List F64) (s : State) : (finishJob ir s).latch = none := rfl
@[simp] theorem finishJob_cfg (ir : List F64) (s : State) : (finishJob ir s).cfg = s.cfg := rfl
@[simp] theorem finishJob_schedule (ir : List F64) (s : State) : (finishJob ir s).schedule = s.schedule := rfl
@[simp] theorem finishJob_response (ir : List F64) (s : State) : (finishJob ir s).response = s.response := rfl
@[simp] theorem finishJob_draws (ir : List F64) (s : State) : (finishJob ir s).draws = s.draws := rfl

@[simp] theorem setOscFreq_cmd (f : F64) (s : State) : (setOscFreq f s).cmd = s.cmd := rfl
@[simp] theorem setOscFreq_running (f : F64) (s : State) : (setOscFreq f s).running = s.running := rfl
@[simp] theorem setOscFreq_err (f : F64) (s : State) : (setOscFreq f s).err = s.err := rfl
@[simp] theorem setOscFreq_audioFault (f : F64) (s : State) : (setOscFreq f s).audioFault = s.audioFault := rfl
@[simp] theorem setOscFreq_done (f : F64) (s : State) : (setOscFreq f s).done = s.done := rfl
@[simp] theorem setOscFreq_mode (f : F64) (s : State) : (setOscFreq f s).mode = s.mode := rfl
@[simp] theorem setOscFreq_specCap (f : F64) (s : State) : (setOscFreq f s).specCap = s.specCap := rfl
@[simp] theorem setOscFreq_f0Cap (f : F64) (s : State) : (setOscFreq f s).f0Cap = s.f0Cap := rfl
@[simp] theorem setOscFreq_actXstep (f : F64) (s : State) : (setOscFreq f s).actXstep = s.actXstep := rfl
@[simp] theorem setOscFreq_xstepIn (f : F64) (s : State) : (setOscFreq f s).xstepIn = s.xstepIn := rfl
@[simp] theorem setOscFreq_f0In (f : F64) (s : State) : (setOscFreq f s).f0In = s.f0In := rfl
@[simp] theorem setOscFreq_shiftIn (f : F64) (s : State) : (setOscFreq f s).shiftIn = s.shiftIn := rfl
@[simp] theorem setOscFreq_oscFreq (f : F64) (s : State) : (setOscFreq f s).oscFreq = f := rfl
@[simp] theorem setOscFreq_oscPhase (f : F64) (s : State) : (setOscFreq f s).oscPhase = s.oscPhase := rfl
@[simp] theorem setOscFreq_smoF0 (f : F64) (s : State) : (setOscFreq f s).smoF0 = s.smoF0 := rfl
@[simp] theorem setOscFreq_audioOut (f : F64) (s : State) : (setOscFreq f s).audioOut = s.audioOut := rfl
@[simp] theorem setOscFreq_edge (f : F64) (s : State) : (setOscFreq f s).edge = s.edge := rfl
@[simp] theorem setOscFreq_specIn (f : F64) (s : State) : (setOscFreq f s).specIn = s.specIn := rfl
@[simp] theorem setOscFreq_specOut (f : F64) (s : State) : (setOscFreq f s).specOut = s.specOut := rfl
@[simp] theorem setOscFreq_irIn (f : F64) (s : State) : (setOscFreq f s).irIn = s.irIn := rfl
@[simp] theorem setOscFreq_irOut (f : F64) (s : State) : (setOscFreq f s).irOut = s.irOut := rfl
@[simp] theorem setOscFreq_sw (f : F64) (s : State) : (setOscFreq f s).sw = s.sw := rfl
@[simp] theorem setOscFreq_fw (f : F64) (s : State) : (setOscFreq f s).fw = s.fw := rfl
@[simp] theorem setOscFreq_occ (f : F64) (s : State) : (setOscFreq f s).occ = s.occ := rfl
@[simp] theorem setOscFreq_latch (f : F64) (s : State) : (setOscFreq f s).latch = s.latch := rfl
@[simp] theorem setOscFreq_cfg (f : F64) (s : State) : (setOscFreq f s).cfg = s.cfg := rfl
@[simp] theorem setOscFreq_schedule (f : F64) (s : State) : (setOscFreq f s).schedule = s.schedule := rfl
@[simp] theorem setOscFreq_response (f : F64) (s : State) : (setOscFreq f s).response = s.response := rfl
@[simp] theorem setOscFreq_draws (f : F64) (s : State) : (setOscFreq f s).draws = s.draws := rfl

@[simp] theorem commitSmoothed_cmd (r : Smoothed) (s : State) : (commitSmoothed r s).cmd = s.cmd := rfl
@[simp] theorem commitSmoothed_running (r : Smoothed) (s : State) : (commitSmoothed r s).running = s.running := rfl
@[simp] theorem commitSmoothed_err (r : Smoothed) (s : State) : (commitSmoothed r s).err = s.err := rfl
@[simp] theorem commitSmoothed_audioFault (r : Smoothed) (s : State) : (commitSmoothed r s).audioFault = s.audioFault := rfl
@[simp] theorem commitSmoothed_done (r : Smoothed) (s : State) : (commitSmoothed r s).done = s.done := rfl
@[simp] theorem commitSmoothed_mode (r : Smoothed) (s : State) : (commitSmoothed r s).mode = s.mode := rfl
@[simp] theorem commitSmoothed_specCap (r : Smoothed) (s : State) : (commitSmoothed r s).specCap = s.specCap := rfl
@[simp] theorem commitSmoothed_f0Cap (r : Smoothed) (s : State) : (commitSmoothed r s).f0Cap = s.f0Cap := rfl
@[simp] theorem commitSmoothed_actXstep (r : Smoothed) (s : State) : (commitSmoothed r s).actXstep = s.actXstep := rfl
@[simp] theorem commitSmoothed_xstepIn (r : Smoothed) (s : State) : (commitSmoothed r s).xstepIn = s.xstepIn := rfl
@[simp] theorem commitSmoothed_f0In (r : Smoothed) (s : State) : (commitSmoothed r s).f0In = s.f0In := rfl
@[simp] theorem commitSmoothed_shiftIn (r : Smoothed) (s : State) : (commitSmoothed r s).shiftIn = s.shiftIn := rfl
@[simp] theorem commitSmoothed_oscFreq (r : Smoothed) (s : State) : (commitSmoothed r s).oscFreq = s.oscFreq := rfl
@[simp] theorem commitSmoothed_oscPhase (r : Smoothed) (s : State) : (commitSmoothed r s).oscPhase = s.oscPhase := rfl
@[simp] theorem commitSmoothed_smoF0 (r : Smoothed) (s : State) : (commitSmoothed r s).smoF0 = r.f0 := rfl
@[simp] theorem commitSmoothed_audioOut (r : Smoothed) (s : State) : (commitSmoothed r s).audioOut = s.audioOut := rfl
@[simp] theorem commitSmoothed_edge (r : Smoothed) (s : State) : (commitSmoothed r s).edge = s.edge := rfl
@[simp] theorem commitSmoothed_specIn (r : Smoothed) (s : State) : (commitSmoothed r s).specIn = s.specIn := rfl
@[simp] theorem commitSmoothed_specOut (r : Smoothed) (s : State) : (commitSmoothed r s).specOut = r.spec := rfl
@[simp] theorem commitSmoothed_irIn (r : Smoothed) (s : State) : (commitSmoothed r s).irIn = s.irIn := rfl
@[simp] theorem commitSmoothed_irOut (r : Smoothed) (s : State) : (commitSmoothed r s).irOut = s.irOut := rfl
@[simp] theorem commitSmoothed_sw (r : Smoothed) (s : State) : (commitSmoothed r s).sw = r.sw := rfl
@[simp] theorem commitSmoothed_fw (r : Smoothed) (s : State) : (commitSmoothed r s).fw = r.fw := rfl
@[simp] theorem commitSmoothed_occ (r : Smoothed) (s : State) : (commitSmoothed r s).occ = s.occ := rfl
@[simp] theorem commitSmoothed_latch (r : Smoothed) (s : State) : (commitSmoothed r s).latch = s.latch := rfl
@[simp] theorem commitSmoothed_cfg (r : Smoothed) (s : State) : (commitSmoothed r s).cfg = s.cfg := rfl
@[simp] theorem commitSmoothed_schedule (r : Smoothed) (s : State) : (commitSmoothed r s).schedule = s.schedule := rfl
@[simp] theorem commitSmoothed_response (r : Smoothed) (s : State) : (commitSmoothed r s).response = s.response := rfl
@[simp] theorem commitSmoothed_draws (r : Smoothed) (s : State) : (commitSmoothed r s).draws = s.draws := rfl

@[simp] theorem installFilter_cmd (ir : List F64) (s : State) : (installFilter ir s).cmd = s.cmd := rfl
@[simp] theorem installFilter_running (ir : List F64) (s : State) : (installFilter ir s).running = s.running := rfl
@[simp] theorem installFilter_err (ir : List F64) (s : State) : (installFilter ir s).err = s.err := rfl
@[simp] theorem installFilter_audioFault (ir : List F64) (s : State) : (installFilter ir s).audioFault = s.audioFault := rfl
@[simp] theorem installFilter_done (ir : List F64) (s : State) : (installFilter ir s).done = s.done := rfl
@[simp] theorem installFilter_mode (ir : List F64) (s : State) : (installFilter ir s).mode = s.mode := rfl
@[simp] theorem installFilter_specCap (ir : List F64) (s : State) : (installFilter ir s).specCap = s.specCap := rfl
@[simp] theorem installFilter_f0Cap (ir : List F64) (s : State) : (installFilter ir s).f0Cap = s.f0Cap := rfl
@[simp] theorem installFilter_actXstep (ir : List F64) (s : State) : (installFilter ir s).actXstep = s.actXstep := rfl
@[simp] theorem installFilter_xstepIn (ir : List F64) (s : State) : (installFilter ir s).xstepIn = s.xstepIn := rfl
@[simp] theorem installFilter_f0In (ir : List F64) (s : State) : (installFilter ir s).f0In = s.f0In := rfl
@[simp] theorem installFilter_shiftIn (ir : List F64) (s : State) : (installFilter ir s).shiftIn = s.shiftIn := rfl
@[simp] theorem installFilter_oscFreq (ir : List F64) (s : State) : (installFilter ir s).oscFreq = s.oscFreq := rfl
@[simp] theorem installFilter_oscPhase (ir : List F64) (s : State) : (installFilter ir s).oscPhase = s.oscPhase := rfl
@[simp] theorem installFilter_smoF0 (ir : List F64) (s : State) : (installFilter ir s).smoF0 = s.smoF0 := rfl
@[simp] theorem installFilter_audioOut (ir : List F64) (s : State) : (installFilter ir s).audioOut = s.audioOut := rfl
@[simp] theorem installFilter_edge (ir : List F64) (s : State) : (installFilter ir s).edge = s.edge := rfl
@[simp] theorem installFilter_specIn (ir : List F64) (s : State) : (installFilter ir s).specIn = s.specIn := rfl
@[simp] theorem installFilter_specOut (ir : List F64) (s : State) : (installFilter ir s).specOut = s.specOut := rfl
@[simp] theorem installFilter_irIn (ir : List F64) (s : State) : (installFilter ir s).irIn = s.irIn := rfl
@[simp] theorem installFilter_irOut (ir : List F64) (s : State) : (installFilter ir s).irOut = s.irOut := rfl
@[simp] theorem installFilter_sw (ir : List F64) (s : State) : (installFilter ir s).sw = s.sw := rfl
@[simp] theorem installFilter_fw (ir : List F64) (s : State) : (installFilter ir s).fw = s.fw := rfl
@[simp] theorem installFilter_occ (ir : List F64) (s : State) : (installFilter ir s).occ = installInto (newFilter s.cfg ir) s.occ := rfl
@[simp] theorem installFilter_latch (ir : List F64) (s : State) : (installFilter ir s).latch = s.latch := rfl
@[simp] theorem installFilter_cfg (ir : List F64) (s : State) : (installFilter ir s).cfg = s.cfg := rfl
@[simp] theorem installFilter_schedule (ir : List F64) (s : State) : (installFilter ir s).schedule = s.schedule := rfl
@[simp] theorem installFilter_response (ir : List F64) (s : State) : (installFilter ir s).response = s.response := rfl
@[simp] theorem installFilter_draws (ir : List F64) (s : State) : (installFilter ir s).draws = s.draws := rfl

@[simp] theorem respond_cmd (r : Response) (s : State) : (respond r s).cmd = s.cmd := rfl
@[simp] theorem respond_running (r : Response) (s : State) : (respond r s).running = s.running := rfl
@[simp] theorem respond_err (r : Response) (s : State) : (respond r s).err = s.err := rfl
@[simp] theorem respond_audioFault (r : Response) (s : State) : (respond r s).audioFault = s.audioFault := rfl
@[simp] theorem respond_done (r : Response) (s : State) : (respond r s).done = s.done := rfl
@[simp] theorem respond_mode (r : Response) (s : State) : (respond r s).mode = s.mode := rfl
@[simp] theorem respond_specCap (r : Response) (s : State) : (respond r s).specCap = s.specCap := rfl
@[simp] theorem respond_f0Cap (r : Response) (s : State) : (respond r s).f0Cap = s.f0Cap := rfl
@[simp] theorem respond_actXstep (r : Response) (s : State) : (respond r s).actXstep = s.actXstep := rfl
@[simp] theorem respond_xstepIn (r : Response) (s : State) : (respond r s).xstepIn = s.xstepIn := rfl
@[simp] theorem respond_f0In (r : Response) (s : State) : (respond r s).f0In = s.f0In := rfl
@[simp] theorem respond_shiftIn (r : Response) (s : State) : (respond r s).shiftIn = s.shiftIn := rfl
@[simp] theorem respond_oscFreq (r : Response) (s : State) : (respond r s).oscFreq = s.oscFreq := rfl
@[simp] theorem respond_oscPhase (r : Response) (s : State) : (respond r s).oscPhase = s.oscPhase := rfl
@[simp] theorem respond_smoF0 (r : Response) (s : State) : (respond r s).smoF0 = s.smoF0 := rfl
@[simp] theorem respond_audioOut (r : Response) (s : State) : (respond r s).audioOut = s.audioOut := rfl
@[simp] theorem respond_edge (r : Response) (s : State) : (respond r s).edge = s.edge := rfl
@[simp] theorem respond_specIn (r : Response) (s : State) : (respond r s).specIn = s.specIn := rfl
@[simp] theorem respond_specOut (r : Response) (s : State) : (respond r s).specOut = s.specOut := rfl
@[simp] theorem respond_irIn (r : Response) (s : State) : (respond r s).irIn = s.irIn := rfl
@[simp] theorem respond_irOut (r : Response) (s : State) : (respond r s).irOut = s.irOut := rfl
@[simp] theorem respond_sw (r : Response) (s : State) : (respond r s).sw = s.sw := rfl
@[simp] theorem respond_fw (r : Response) (s : State) : (respond r s).fw = s.fw := rfl
@[simp] theorem respond_occ (r : Response) (s : State) : (respond r s).occ = s.occ := rfl
@[simp] theorem respond_latch (r : Response) (s : State) : (respond r s).latch = s.latch := rfl
@[simp] theorem respond_cfg (r : Response) (s : State) : (respond r s).cfg = s.cfg := rfl
@[simp] theorem respond_schedule (r : Response) (s : State) : (respond r s).schedule = s.schedule := rfl
@[simp] theorem respond_response (r : Response) (s : State) : (respond r s).response = some r := rfl
@[simp] theorem respond_draws (r : Response) (s : State) : (respond r s).draws = s.draws := rfl

@[simp] theorem xfadeTick_cmd (s : State) : (xfadeTick s).cmd = s.cmd := rfl
@[simp] theorem xfadeTick_running (s : State) : (xfadeTick s).running = s.running := rfl
@[simp] theorem xfadeTick_err (s : State) : (xfadeTick s).err = s.err := rfl
@[simp] theorem xfadeTick_audioFault (s : State) : (xfadeTick s).audioFault = s.audioFault := rfl
@[simp] theorem xfadeTick_done (s : State) : (xfadeTick s).done = s.done := rfl
@[simp] theorem xfadeTick_mode (s : State) : (xfadeTick s).mode = s.mode := rfl
@[simp] theorem xfadeTick_specCap (s : State) : (xfadeTick s).specCap = s.specCap := rfl
@[simp] theorem xfadeTick_f0Cap (s : State) : (xfadeTick s).f0Cap = s.f0Cap := rfl
@[simp] theorem xfadeTick_actXstep (s : State) : (xfadeTick s).actXstep = s.actXstep := rfl
@[simp] theorem xfadeTick_xstepIn (s : State) : (xfadeTick s).xstepIn = s.xstepIn := rfl
@[simp] theorem xfadeTick_f0In (s : State) : (xfadeTick s).f0In = s.f0In := rfl
@[simp] theorem xfadeTick_shiftIn (s : State) : (xfadeTick s).shiftIn = s.shiftIn := rfl
@[simp] theorem xfadeTick_oscFreq (s : State) : (xfadeTick s).oscFreq = s.oscFreq := rfl
@[simp] theorem xfadeTick_oscPhase (s : State) : (xfadeTick s).oscPhase = s.oscPhase := rfl
@[simp] theorem xfadeTick_smoF0 (s : State) : (xfadeTick s).smoF0 = s.smoF0 := rfl
@[simp] theorem xfadeTick_audioOut (s : State) : (xfadeTick s).audioOut = s.audioOut := rfl
@[simp] theorem xfadeTick_edge (s : State) : (xfadeTick s).edge = s.edge := rfl
@[simp] theorem xfadeTick_specIn (s : State) : (xfadeTick s).specIn = s.specIn := rfl
@[simp] theorem xfadeTick_specOut (s : State) : (xfadeTick s).specOut = s.specOut := rfl
@[simp] theorem xfadeTick_irIn (s : State) : (xfadeTick s).irIn = s.irIn := rfl
@[simp] theorem xfadeTick_irOut (s : State) : (xfadeTick s).irOut = s.irOut := rfl
@[simp] theorem xfadeTick_sw (s : State) : (xfadeTick s).sw = s.sw := rfl
@[simp] theorem xfadeTick_fw (s : State) : (xfadeTick s).fw = s.fw := rfl
@[simp] theorem xfadeTick_occ (s : State) : (xfadeTick s).occ = if s.running then advanceCrossfade s.actXstep s.occ else s.occ := rfl
@[simp] theorem xfadeTick_latch (s : State) : (xfadeTick s).latch = s.latch := rfl
@[simp] theorem xfadeTick_cfg (s : State) : (xfadeTick s).cfg = s.cfg := rfl
@[simp] theorem xfadeTick_schedule (s : State) : (xfadeTick s).schedule = s.schedule := rfl
@[simp] theorem xfadeTick_response (s : State) : (xfadeTick s).response = s.response := rfl
@[simp] theorem xfadeTick_draws (s : State) : (xfadeTick s).draws = s.draws := rfl

@[simp] theorem audioFaultEvent_cmd (s : State) : (audioFaultEvent s).cmd = s.cmd := rfl
@[simp] theorem audioFaultEvent_running (s : State) : (audioFaultEvent s).running = s.running := rfl
@[simp] theorem audioFaultEvent_err (s : State) : (audioFaultEvent s).err = s.err := rfl
@[simp] theorem audioFaultEvent_audioFault (s : State) : (audioFaultEvent s).audioFault = true := rfl
@[simp] theorem audioFaultEvent_done (s : State) : (audioFaultEvent s).done = s.done := rfl
@[simp] theorem audioFaultEvent_mode (s : State) : (audioFaultEvent s).mode = s.mode := rfl
@[simp] theorem audioFaultEvent_specCap (s : State) : (audioFaultEvent s).specCap = s.specCap := rfl
@[simp] theorem audioFaultEvent_f0Cap (s : State) : (audioFaultEvent s).f0Cap = s.f0Cap := rfl
@[simp] theorem audioFaultEvent_actXstep (s : State) : (audioFaultEvent s).actXstep = s.actXstep := rfl
@[simp] theorem audioFaultEvent_xstepIn (s : State) : (audioFaultEvent s).xstepIn = s.xstepIn := rfl
@[simp] theorem audioFaultEvent_f0In (s : State) : (audioFaultEvent s).f0In = s.f0In := rfl
@[simp] theorem audioFaultEvent_shiftIn (s : State) : (audioFaultEvent s).shiftIn = s.shiftIn := rfl
@[simp] theorem audioFaultEvent_oscFreq (s : State) : (audioFaultEvent s).oscFreq = s.oscFreq := rfl
@[simp] theorem audioFaultEvent_oscPhase (s : State) : (audioFaultEvent s).oscPhase = s.oscPhase := rfl
@[simp] theorem audioFaultEvent_smoF0 (s : State) : (audioFaultEvent s).smoF0 = s.smoF0 := rfl
@[simp] theorem audioFaultEvent_audioOut (s : State) : (audioFaultEvent s).audioOut = s.audioOut := rfl
@[simp] theorem audioFaultEvent_edge (s : State) : (audioFaultEvent s).edge = s.edge := rfl
@[simp] theorem audioFaultEvent_specIn (s : State) : (audioFaultEvent s).specIn = s.specIn := rfl
@[simp] theorem audioFaultEvent_specOut (s : State) : (audioFaultEvent s).specOut = s.specOut := rfl
@[simp] theorem audioFaultEvent_irIn (s : State) : (audioFaultEvent s).irIn = s.irIn := rfl
@[simp] theorem audioFaultEvent_irOut (s : State) : (audioFaultEvent s).irOut = s.irOut := rfl
@[simp] theorem audioFaultEvent_sw (s : State) : (audioFaultEvent s).sw = s.sw := rfl
@[simp] theorem audioFaultEvent_fw (s : State) : (audioFaultEvent s).fw = s.fw := rfl
@[simp] theorem audioFaultEvent_occ (s : State) : (audioFaultEvent s).occ = s.occ := rfl
@[simp] theorem audioFaultEvent_latch (s : State) : (audioFaultEvent s).latch = s.latch := rfl
@[simp] theorem audioFaultEvent_cfg (s : State) : (audioFaultEvent s).cfg = s.cfg := rfl
@[simp] theorem audioFaultEvent_schedule (s : State) : (audioFaultEvent s).schedule = s.schedule := rfl
@[simp] theorem audioFaultEvent_response (s : State) : (audioFaultEvent s).response = s.response := rfl
@[simp] theorem audioFaultEvent_draws (s : State) : (audioFaultEvent s).draws = s.draws := rfl

end Sys2Proof.Machine
end

