-- ==== Sys2Proof/Laws/Ops.lean ====
section
/-! SUPPORT. One lemma for each shared operation of the commands, saying once everything it can do. -/

namespace Sys2Proof.Machine

/-- The error action keeps a recorded code. -/
theorem raiseError_of_recorded {e c : ErrCode} {s : State} (h : s.err = some c) : raiseError e s = s := by
  cases s
  simp only at h
  subst h
  rfl

/-- The error action records its code where none is. -/
theorem raiseError_of_clear {e : ErrCode} {s : State} (h : s.err = none) : raiseError e s = { s with err := some e } := by
  simp [raiseError, h]

/-- The gates let a command through exactly when it may run. -/
theorem gateError_eq_none_iff {ni : Bool} {need : SessionNeed} {s : State} :
    gateError ni need s = none ↔
      (ni = true → s.busy = false) ∧ (need = .running → s.running = true) ∧ (need = .stopped → s.running = false) := by
  cases ni <;> cases need <;> cases hb : s.busy <;> cases hr : s.running <;> simp [gateError, hb, hr]

/-- What a gate answers is BUSY of a busy block, or the session error of an idle one. -/
theorem gateError_eq_some {ni : Bool} {need : SessionNeed} {s : State} {e : ErrCode} (h : gateError ni need s = some e) :
    (e = .busy ∧ ni = true ∧ s.busy = true)
      ∨ (e = .notRunning ∧ need = .running ∧ s.running = false ∧ (ni && s.busy) = false)
      ∨ (e = .notStopped ∧ need = .stopped ∧ s.running = true ∧ (ni && s.busy) = false) := by
  revert h
  cases ni <;> cases need <;> cases hb : s.busy <;> cases hr : s.running <;> simp [gateError, hb, hr, eq_comm]

/-- A command ends in a next state: its effect, or the error action. -/
theorem settle_next {s t : State} {r : Except ErrCode State} (h : settle s r = .next t) :
    r = .ok t ∨ ∃ e, r = .error e ∧ t = raiseError e s := by
  cases r with
  | ok u => simp only [settle, Host.Outcome.next.injEq] at h; exact .inl (by rw [h])
  | error e => simp only [settle, Host.Outcome.next.injEq] at h; exact .inr ⟨e, rfl, h.symm⟩

/-- `settle` always goes on. -/
theorem settle_completes (s : State) (r : Except ErrCode State) : ∃ t, settle s r = .next t := by
  cases r <;> exact ⟨_, rfl⟩

/-- Everything a gated command can do: it is refused at a gate, refused by its own checks, or has its effect. -/
theorem issueGated_next {ni : Bool} {need : SessionNeed} {f : State → Except ErrCode State} {s t : State}
    (h : issueGated ni need f s = .next t) :
    (∃ e, gateError ni need s = some e ∧ t = raiseError e s)
      ∨ (∃ e, gateError ni need s = none ∧ f s = .error e ∧ t = raiseError e s)
      ∨ (gateError ni need s = none ∧ f s = .ok t) := by
  unfold issueGated at h
  cases hg : gateError ni need s with
  | some e =>
    rw [hg] at h
    rcases settle_next h with h1 | ⟨e', h1, h2⟩
    · cases h1
    · cases h1; exact .inl ⟨e, rfl, h2⟩
  | none =>
    rw [hg] at h
    rcases settle_next h with h1 | ⟨e, h1, h2⟩
    · exact .inr (.inr ⟨rfl, h1⟩)
    · exact .inr (.inl ⟨e, rfl, h1, h2⟩)

/-- A gated command always goes on. -/
theorem issueGated_completes (ni : Bool) (need : SessionNeed) (f : State → Except ErrCode State) (s : State) :
    ∃ t, issueGated ni need f s = .next t := by
  unfold issueGated
  cases gateError ni need s <;> exact settle_completes _ _

/-- Past its gates, a gated command is its own rule. -/
theorem issueGated_open {ni : Bool} {need : SessionNeed} {f : State → Except ErrCode State} {s : State}
    (h : gateError ni need s = none) : issueGated ni need f s = settle s (f s) := by
  simp [issueGated, h]

/-- At a gate that refuses, a gated command is the error action. -/
theorem issueGated_refused {ni : Bool} {need : SessionNeed} {f : State → Except ErrCode State} {s : State} {e : ErrCode}
    (h : gateError ni need s = some e) : issueGated ni need f s = .next (raiseError e s) := by
  simp [issueGated, h, settle]

/-- Accept commits exactly when its four checks pass, and then it commits the tentative push. -/
theorem accept_ok {s t : State} (h : accept s = .ok t) :
    validF0 s.f0In = true ∧ allFinite s.specIn = true
      ∧ validF0 (smoothPush s s.specIn s.f0In).f0 = true ∧ allFinite (smoothPush s s.specIn s.f0In).spec = true
      ∧ t = commitSmoothed (smoothPush s s.specIn s.f0In) s := by
  unfold accept at h
  simp only at h
  split at h
  · cases h
  · split at h
    · cases h
    · split at h
      · cases h
      · split at h
        · cases h
        · cases h; simp_all

/-- What FRAME with V = 1 does once it is accepted. -/
theorem startFrameJob_ok {s t : State} (h : startFrameJob s = .ok t) :
    ∃ u, accept s = .ok u ∧ t = latchJob (.frame u.specOut u.smoF0) u := by
  unfold startFrameJob at h
  cases ha : accept s with
  | error e => rw [ha] at h; cases h
  | ok u => rw [ha] at h; cases h; exact ⟨u, rfl, rfl⟩

/-- What SYNTH does once it is accepted. -/
theorem startSynthJob_ok {s t : State} (h : startSynthJob s = .ok t) :
    validF0 s.f0In = true ∧ validPowerSpectrum s.specIn = true ∧ validShift s.shiftIn = true
      ∧ t = latchJob (.synth s.specIn s.f0In s.shiftIn) s := by
  unfold startSynthJob at h
  split at h
  · cases h
  · split at h
    · cases h
    · split at h
      · cases h
      · cases h; simp_all

/-- What INSTALL does once it is accepted. -/
theorem installOperand_ok {s t : State} (h : installOperand s = .ok t) :
    allFinite s.irIn = true ∧ t = installFilter s.irIn s := by
  unfold installOperand at h
  split at h
  · cases h
  · cases h; simp_all

/-- What SETFREQ does once it is accepted. -/
theorem setFrequency_ok {s t : State} (h : setFrequency s = .ok t) : validF0 s.f0In = true ∧ t = setOscFreq s.f0In s := by
  unfold setFrequency at h
  split at h
  · cases h
  · cases h; simp_all

/-- What CONFIG does once it is accepted. -/
theorem configure_ok {m : SmoothMode} {a b : Nat} {s t : State} (h : configure m a b s = .ok t) :
    validCapacity a s.cfg.specCapMax = true ∧ validCapacity b s.cfg.f0CapMax = true ∧ validXstep s.xstepIn = true
      ∧ t = setConfig m a b s.xstepIn s := by
  unfold configure at h
  split at h
  · cases h; simp_all
  · cases h

/-- Everything a command can do to the state, one disjunct for each kind of effect: nothing, the error action, or one named update
with the checks that let it happen. -/
theorem exec_next {i : Instr} {s t : State} (h : exec i s = .next t) :
    ((i = .nop ∨ i = .frame false) ∧ t = s)
      ∨ (∃ e, t = raiseError e s ∧ i ≠ .nop ∧ i ≠ .stop ∧ i ≠ .clrerr ∧ i ≠ .frame false)
      ∨ (i = .start ∧ s.busy = false ∧ s.running = false ∧ t = startSession s)
      ∨ (i = .stop ∧ t = stopSession s)
      ∨ (∃ m a b, i = .config m a b ∧ s.busy = false ∧ s.running = false ∧ validCapacity a s.cfg.specCapMax = true
          ∧ validCapacity b s.cfg.f0CapMax = true ∧ validXstep s.xstepIn = true ∧ t = setConfig m a b s.xstepIn s)
      ∨ (∃ u, (i = .frame true ∨ i = .push) ∧ s.busy = false ∧ s.running = true ∧ accept s = .ok u
          ∧ t = if i = .push then u else latchJob (.frame u.specOut u.smoF0) u)
      ∨ (i = .synth ∧ s.busy = false ∧ validF0 s.f0In = true ∧ validPowerSpectrum s.specIn = true
          ∧ validShift s.shiftIn = true ∧ t = latchJob (.synth s.specIn s.f0In s.shiftIn) s)
      ∨ (i = .install ∧ s.busy = false ∧ s.running = true ∧ allFinite s.irIn = true ∧ t = installFilter s.irIn s)
      ∨ (i = .setfreq ∧ s.busy = false ∧ s.running = true ∧ validF0 s.f0In = true ∧ t = setOscFreq s.f0In s)
      ∨ (i = .clrerr ∧ t = clearErrors s) := by
  have gated {ni : Bool} {need : SessionNeed} {f : State → Except ErrCode State} (hx : issueGated ni need f s = .next t) :
      (∃ e, t = raiseError e s) ∨ (gateError ni need s = none ∧ f s = .ok t) := by
    rcases issueGated_next hx with ⟨e, _, h2⟩ | ⟨e, _, _, h2⟩ | h2
    · exact .inl ⟨e, h2⟩
    · exact .inl ⟨e, h2⟩
    · exact .inr h2
  cases i with
  | nop => simp only [exec, execNop, Host.Outcome.next.injEq] at h; simp [h]
  | stop => simp only [exec, execStop, Host.Outcome.next.injEq] at h; simp [h]
  | clrerr => simp only [exec, execClrerr, Host.Outcome.next.injEq] at h; simp [h]
  | start =>
    have hx : issueGated true .stopped (fun u => .ok (startSession u)) s = .next t := h
    rcases gated hx with ⟨e, he⟩ | ⟨hg, hk⟩
    · exact .inr (.inl ⟨e, he, by simp⟩)
    · have := gateError_eq_none_iff.mp hg
      cases hk
      simp_all
  | config m a b =>
    rcases gated h with ⟨e, he⟩ | ⟨hg, hk⟩
    · exact .inr (.inl ⟨e, he, by simp⟩)
    · have := gateError_eq_none_iff.mp hg
      have := configure_ok hk
      simp_all
  | frame v =>
    cases v with
    | false => simp only [exec, execFrame, Host.Outcome.next.injEq] at h; simp [h]
    | true =>
      rcases gated h with ⟨e, he⟩ | ⟨hg, hk⟩
      · exact .inr (.inl ⟨e, he, by simp⟩)
      · have := gateError_eq_none_iff.mp hg
        obtain ⟨u, hu, ht⟩ := startFrameJob_ok hk
        simp_all
  | synth =>
    rcases gated h with ⟨e, he⟩ | ⟨hg, hk⟩
    · exact .inr (.inl ⟨e, he, by simp⟩)
    · have := gateError_eq_none_iff.mp hg
      have := startSynthJob_ok hk
      simp_all
  | push =>
    rcases gated h with ⟨e, he⟩ | ⟨hg, hk⟩
    · exact .inr (.inl ⟨e, he, by simp⟩)
    · have := gateError_eq_none_iff.mp hg
      simp_all
  | install =>
    rcases gated h with ⟨e, he⟩ | ⟨hg, hk⟩
    · exact .inr (.inl ⟨e, he, by simp⟩)
    · have := gateError_eq_none_iff.mp hg
      have := installOperand_ok hk
      simp_all
  | setfreq =>
    rcases gated h with ⟨e, he⟩ | ⟨hg, hk⟩
    · exact .inr (.inl ⟨e, he, by simp⟩)
    · have := gateError_eq_none_iff.mp hg
      have := setFrequency_ok hk
      simp_all

end Sys2Proof.Machine
end

