-- ==== Sys2Proof/Laws/PerInstr.lean ====
section
/-! SUPPORT. A statement about every command as syntax, made constructor by constructor: the low byte of its word is its opcode, and
its other bits are zero but for the fields R91 gives it. -/

namespace Sys2Proof.Laws.EncodeMatchesRow

/-- The low byte of the command's word is its opcode (R91, R92), and the word has no bit outside the command's fields: bits 15:9 and
63:48 of CONFIG, 63:9 of FRAME and 63:8 of every other command are zero. -/
def Statement (i : Instr) : Prop :=
  (encode i).toNat % 2 ^ 8 = i.opcode.toNat
    ∧ match i with
      | .config _ _ _ => (encode i).toNat / 2 ^ 9 % 2 ^ 7 = 0 ∧ (encode i).toNat / 2 ^ 48 = 0
      | .frame _ => (encode i).toNat / 2 ^ 9 = 0
      | .nop | .start | .stop | .synth | .push | .install | .setfreq | .clrerr => (encode i).toNat / 2 ^ 8 = 0

/-- The command word as a number. -/
theorem commandWord_toNat (fcap scap : Nat) (mv : Bool) (opc : BitVec 8) :
    (commandWord fcap scap mv opc).toNat
      = (fcap % 2 ^ 16) * 2 ^ 32 + (scap % 2 ^ 16) * 2 ^ 16 + (if mv then 2 ^ 8 else 0) + opc.toNat := by
  have ho := opc.isLt
  have hf : fcap % 2 ^ 16 < 2 ^ 16 := Nat.mod_lt _ (by decide)
  have hs : scap % 2 ^ 16 < 2 ^ 16 := Nat.mod_lt _ (by decide)
  have key : ∀ (n w : Nat) (x : BitVec w) (y : BitVec n), (x ++ y).toNat = x.toNat * 2 ^ n + y.toNat := by
    intro n w x y
    rw [BitVec.toNat_append, Nat.shiftLeft_eq, ← Nat.shiftLeft_eq, Nat.shiftLeft_add_eq_or_of_lt y.isLt]
  simp only [commandWord, key, BitVec.toNat_ofNat]
  cases mv <;> simp <;> omega

theorem nop : Statement .nop := ⟨by decide, show (encode .nop).toNat / 2 ^ 8 = 0 by decide⟩
theorem start : Statement .start := ⟨by decide, show (encode .start).toNat / 2 ^ 8 = 0 by decide⟩
theorem stop : Statement .stop := ⟨by decide, show (encode .stop).toNat / 2 ^ 8 = 0 by decide⟩
theorem frame (v : Bool) : Statement (.frame v) := by
  cases v
  · exact ⟨by decide, show (encode (.frame false)).toNat / 2 ^ 9 = 0 by decide⟩
  · exact ⟨by decide, show (encode (.frame true)).toNat / 2 ^ 9 = 0 by decide⟩
theorem synth : Statement .synth := ⟨by decide, show (encode .synth).toNat / 2 ^ 8 = 0 by decide⟩
theorem push : Statement .push := ⟨by decide, show (encode .push).toNat / 2 ^ 8 = 0 by decide⟩
theorem install : Statement .install := ⟨by decide, show (encode .install).toNat / 2 ^ 8 = 0 by decide⟩
theorem setfreq : Statement .setfreq := ⟨by decide, show (encode .setfreq).toNat / 2 ^ 8 = 0 by decide⟩
theorem clrerr : Statement .clrerr := ⟨by decide, show (encode .clrerr).toNat / 2 ^ 8 = 0 by decide⟩

theorem config (mode : SmoothMode) (scap fcap : Nat) : Statement (.config mode scap fcap) := by
  have hm : ∀ a b m, ((commandWord a b m 0x03#8).toNat % 2 ^ 8 = 3) ∧ (commandWord a b m 0x03#8).toNat / 2 ^ 9 % 2 ^ 7 = 0
      ∧ (commandWord a b m 0x03#8).toNat / 2 ^ 48 = 0 := by
    intro a b m
    rw [commandWord_toNat]
    have h3 : (0x03#8).toNat = 3 := rfl
    have ha : a % 2 ^ 16 < 2 ^ 16 := Nat.mod_lt _ (by decide)
    have hb : b % 2 ^ 16 < 2 ^ 16 := Nat.mod_lt _ (by decide)
    rw [h3]
    cases m <;> simp only [if_true, Bool.false_eq_true, if_false] <;> omega
  exact hm fcap scap mode.bit

end Sys2Proof.Laws.EncodeMatchesRow
end

