-- ==== Sys2Proof/Laws/Port.lean ====
section
/-! SUPPORT. The host port's laws: an offset names one location and a location has one offset; a store is read back, leaves every
other location alone, and keeps the buffers' lengths (the canonical form of this model's memory). -/

namespace Sys2Proof.Machine

/-- A register's offset is eight times its index. -/
theorem registerAt_offset {i : Nat} {l : Loc} (h : registerAt i = some l) : l.offset = 8 * i := by
  unfold registerAt at h
  split at h <;> first | (cases h; rfl) | cases h

/-- A buffer element's location is its index, within the buffer. -/
theorem bufferAt_some {n i : Nat} {f : Nat → Loc} {l : Loc} (h : bufferAt n f i = some l) : i < n ∧ l = f i := by
  unfold bufferAt at h
  split at h
  · next hi => exact ⟨hi, (Option.some.inj h).symm⟩
  · cases h

/-- `locate` answers the location whose offset it is given. -/
theorem locate_offset {c : Config} {a : Nat} {l : Loc} (h : locate c a = some l) : a = l.offset := by
  unfold locate at h
  simp only at h
  split at h
  · cases h
  · split at h
    · have := registerAt_offset h; omega
    all_goals first
      | (obtain ⟨_, rfl⟩ := bufferAt_some h; simp only [Loc.offset]; omega)
      | cases h

/-- The only offset of CMD. -/
theorem accessed_cmdAddr (c : Config) : accessed c cmdAddr 8 = some .cmd := rfl

/-- An access that reaches a location is 8 bytes wide and located. -/
theorem accessed_some {c : Config} {a : Addr} {w : Nat} {l : Loc} (h : accessed c a w = some l) :
    w = 8 ∧ locate c a.toNat = some l := by
  unfold accessed at h
  split at h
  · next hw => exact ⟨hw, h⟩
  · cases h

/-- A store never changes the instance, so it moves no location. -/
theorem storeLoc_cfg {s t : State} {v : Word} {l : Loc} (h : storeLoc s v l = some t) : t.cfg = s.cfg := by
  cases l <;> simp only [storeLoc, Option.some.injEq, reduceCtorEq] at h <;> subst h <;> rfl

/-- A store keeps every buffer's length. -/
theorem storeLoc_lengths {s t : State} {v : Word} {l : Loc} (h : storeLoc s v l = some t) :
    t.specIn.length = s.specIn.length ∧ t.specOut.length = s.specOut.length ∧ t.irIn.length = s.irIn.length
      ∧ t.irOut.length = s.irOut.length := by
  cases l <;> simp only [storeLoc, Option.some.injEq, reduceCtorEq] at h <;> subst h <;> simp

/-- Reading an element just set. -/
theorem element_set_self {xs : List F64} {i : Nat} (v : F64) (h : i < xs.length) : element (xs.set i v) i = v := by
  simp [element, List.getD_eq_getElem?_getD, h]

/-- Reading another element than the one set. -/
theorem element_set_other {xs : List F64} {i j : Nat} (v : F64) (h : i ≠ j) : element (xs.set i v) j = element xs j := by
  simp [element, List.getD_eq_getElem?_getD, List.getElem?_set_ne h]

/-- The location has its element: an index within its buffer. -/
def Loc.inBuffer (s : State) : Loc → Bool
  | .specIn i => decide (i < s.specIn.length)
  | .irIn i => decide (i < s.irIn.length)
  | _ => true

/-- A stored word is read back. -/
theorem readLoc_storeLoc_self {s t : State} {v : Word} {l : Loc} (h : storeLoc s v l = some t) (hl : l.inBuffer s = true) :
    readLoc t l = v := by
  cases l <;> simp only [storeLoc, Option.some.injEq, reduceCtorEq] at h <;> subst h
  all_goals first
    | rfl
    | exact element_set_self v (by simpa [Loc.inBuffer] using hl)

/-- A store leaves every other location as it was. -/
theorem readLoc_storeLoc_other {s t : State} {v : Word} {l m : Loc} (h : storeLoc s v l = some t) (hm : m ≠ l) :
    readLoc t m = readLoc s m := by
  cases l <;> simp only [storeLoc, Option.some.injEq, reduceCtorEq] at h <;> subst h <;> cases m
  all_goals first
    | rfl
    | exact absurd rfl hm
    | exact element_set_other v (fun he => hm (by rw [he]))

/-- An instance's buffers fit their windows (R3, R63). -/
theorem buffer_bounds {c : Config} (hc : c.wf = true) : c.bins ≤ 4097 ∧ c.fftSize ≤ 8192 := by
  simp only [Config.wf, Bool.and_eq_true, decide_eq_true_eq] at hc
  simp only [Config.bins, Config.half]
  omega

/-- A located element is in its buffer. -/
theorem locate_index {c : Config} {a : Nat} {l : Loc} (h : locate c a = some l) : l.index < l.size c := by
  unfold locate at h
  simp only at h
  split at h
  · cases h
  · split at h
    · unfold registerAt at h
      split at h <;> cases h <;> exact Nat.one_pos
    all_goals first
      | (obtain ⟨hi, rfl⟩ := bufferAt_some h; exact hi)
      | cases h

/-- Every element of a buffer, and every register, is located at its offset. -/
theorem locate_of_offset {c : Config} (hc : c.wf = true) {l : Loc} (h : l.index < l.size c) :
    locate c l.offset = some l := by
  have hb := buffer_bounds hc
  cases l <;> simp only [Loc.index, Loc.size] at h
  case specIn i =>
    have e1 : (0x10000 + 8 * i) % 0x10000 / 8 = i := by omega
    have e2 : (0x10000 + 8 * i) / 0x10000 = 1 := by omega
    have e3 : (0x10000 + 8 * i) % 8 = 0 := by omega
    simp only [Loc.offset, locate, e1, e2, e3, bufferAt, h, if_true, ne_eq,
      not_true, if_false]
  case specOut i =>
    have e1 : (0x20000 + 8 * i) % 0x10000 / 8 = i := by omega
    have e2 : (0x20000 + 8 * i) / 0x10000 = 2 := by omega
    have e3 : (0x20000 + 8 * i) % 8 = 0 := by omega
    simp only [Loc.offset, locate, e1, e2, e3, bufferAt, h, if_true, ne_eq,
      not_true, if_false]
  case irIn i =>
    have e1 : (0x30000 + 8 * i) % 0x10000 / 8 = i := by omega
    have e2 : (0x30000 + 8 * i) / 0x10000 = 3 := by omega
    have e3 : (0x30000 + 8 * i) % 8 = 0 := by omega
    simp only [Loc.offset, locate, e1, e2, e3, bufferAt, h, if_true, ne_eq,
      not_true, if_false]
  case irOut i =>
    have e1 : (0x40000 + 8 * i) % 0x10000 / 8 = i := by omega
    have e2 : (0x40000 + 8 * i) / 0x10000 = 4 := by omega
    have e3 : (0x40000 + 8 * i) % 8 = 0 := by omega
    simp only [Loc.offset, locate, e1, e2, e3, bufferAt, h, if_true, ne_eq,
      not_true, if_false]
  case exportIr i =>
    have e1 : (0x50000 + 8 * i) % 0x10000 / 8 = i := by omega
    have e2 : (0x50000 + 8 * i) / 0x10000 = 5 := by omega
    have e3 : (0x50000 + 8 * i) % 8 = 0 := by omega
    simp only [Loc.offset, locate, e1, e2, e3, bufferAt, h, if_true, ne_eq,
      not_true, if_false]
  all_goals rfl

/-- The registers fill the offsets from 0x00 to 0x80. -/
theorem locate_register {c : Config} {k : Nat} (h : k ≤ 16) : (locate c (8 * k)).isSome = true := by
  have e1 : 8 * k % 0x10000 / 8 = k := by omega
  have e2 : 8 * k / 0x10000 = 0 := by omega
  have e3 : 8 * k % 8 = 0 := by omega
  simp only [locate, e1, e2, e3, ne_eq, not_true, if_false]
  interval_cases k <;> rfl

/-- The aligned offsets with a location are the mapped ones of R63. -/
theorem locate_isSome_iff {c : Config} (hc : c.wf = true) {a : Nat} :
    (locate c a).isSome = true ↔ a % 8 = 0 ∧ mappedOffset c a := by
  have hb := buffer_bounds hc
  constructor
  · intro h
    obtain ⟨l, hl⟩ := Option.isSome_iff_exists.mp h
    have h1 := locate_offset hl
    have h2 := locate_index hl
    unfold mappedOffset
    cases l <;> simp only [Loc.offset, Loc.index, Loc.size] at h1 h2 <;> omega
  · rintro ⟨h8, hm⟩
    have buf : ∀ l : Loc, l.index < l.size c → a = l.offset → (locate c a).isSome = true := by
      rintro l h1 h2
      rw [h2, locate_of_offset hc h1]; rfl
    have hk : ∀ b, b % 8 = 0 → b ≤ a → ∃ k, a = b + 8 * k := fun b h1 h2 => ⟨(a - b) / 8, by omega⟩
    unfold mappedOffset at hm
    rcases hm with hm | hm | hm | hm | hm | hm
    · have := locate_register (c := c) (k := a / 8) (by omega)
      rwa [show 8 * (a / 8) = a by omega] at this
    · obtain ⟨k, hk⟩ := hk 0x10000 rfl hm.1
      exact buf (.specIn k) (by simp only [Loc.index, Loc.size]; omega) hk
    · obtain ⟨k, hk⟩ := hk 0x20000 rfl hm.1
      exact buf (.specOut k) (by simp only [Loc.index, Loc.size]; omega) hk
    · obtain ⟨k, hk⟩ := hk 0x30000 rfl hm.1
      exact buf (.irIn k) (by simp only [Loc.index, Loc.size]; omega) hk
    · obtain ⟨k, hk⟩ := hk 0x40000 rfl hm.1
      exact buf (.irOut k) (by simp only [Loc.index, Loc.size]; omega) hk
    · obtain ⟨k, hk⟩ := hk 0x50000 rfl hm.1
      exact buf (.exportIr k) (by simp only [Loc.index, Loc.size]; omega) hk

/-- The offsets the host may write are CMD's and those of RW storage. -/
theorem locate_writable_iff {c : Config} {s : State} {v : Word} (hc : c.wf = true) {a : Nat} :
    (∃ l, locate c a = some l ∧ (storeLoc s v l).isSome = true) ↔
      a % 8 = 0 ∧ mappedOffset c a ∧ (a = 0x18 ∨ storageOffset c a) := by
  have hb := buffer_bounds hc
  constructor
  · rintro ⟨l, hl, hs⟩
    have hm := (locate_isSome_iff (a := a) hc).mp (by rw [hl]; rfl)
    refine ⟨hm.1, hm.2, ?_⟩
    have h1 := locate_offset hl
    have h2 := locate_index hl
    unfold storageOffset
    cases l <;> simp only [storeLoc, Loc.offset, Loc.index, Loc.size, Option.isSome_none, Bool.false_eq_true] at h1 h2 hs <;> omega
  · rintro ⟨h8, hm, hs⟩
    obtain ⟨l, hl⟩ := Option.isSome_iff_exists.mp ((locate_isSome_iff hc).mpr ⟨h8, hm⟩)
    refine ⟨l, hl, ?_⟩
    have h1 := locate_offset hl
    have h2 := locate_index hl
    unfold storageOffset at hs
    cases l <;> simp only [storeLoc, Loc.offset, Loc.index, Loc.size, Option.isSome_some, Option.isSome_none] at h1 h2 ⊢ <;> omega

/-- The error action changes no location but STATUS. -/
theorem readLoc_raiseError (e : ErrCode) (s : State) {l : Loc} (h : l ≠ .status) : readLoc (raiseError e s) l = readLoc s l := by
  cases l <;> first | rfl | exact absurd rfl h

end Sys2Proof.Machine
end

