-- ==== Sys2Proof/Machine/Script.lean ====
section
/-! DEFINITION. Host scripts (spec/30_encoding.md R99 to R101), as statements already parsed: what each stands for as agent steps,
when a script describes an execution, and a script placed in the schedule. The control flow around them is the host's own (R102). -/

namespace Sys2Proof.Machine

/-- A buffer that a script names (R100). -/
inductive ScriptBuffer where
  | specIn | specOut | irIn | irOut | exportIr
  deriving DecidableEq, Repr

/-- `BUF[i]`. -/
def ScriptBuffer.loc : ScriptBuffer → Nat → Loc
  | .specIn => .specIn
  | .specOut => .specOut
  | .irIn => .irIn
  | .irOut => .irOut
  | .exportIr => .exportIr

/-- `len(BUF)` (R42 to R45, R37). -/
def ScriptBuffer.size (c : Config) : ScriptBuffer → Nat
  | .specIn | .specOut => c.bins
  | .irIn | .irOut | .exportIr => c.fftSize

/-- A statement of a host script (R99 to R101). -/
inductive ScriptStmt where
  /-- `WR <loc>, <value>`. -/
  | wr (l : Loc) (v : Word)
  /-- `RD <loc>`. -/
  | rd (l : Loc)
  /-- A command by its mnemonic. -/
  | command (i : Instr)
  /-- `CMD <word>`, legal or not. -/
  | rawCommand (w : Word)
  /-- `FILL <BUF>, <value>`. -/
  | fill (b : ScriptBuffer) (v : Word)
  /-- `LOAD <BUF>, v0, …, vk`. -/
  | load (b : ScriptBuffer) (vs : List Word)
  /-- `WAIT`: the loop's first read of STATUS, and one more after each group of the other agents' steps that come while it loops. It
  is an execution of the loop only where `waitRuns` holds (log entry 22). -/
  | wait (between : List (List Event))
  /-- `EVT SAMPLE ×n`. -/
  | samples (n : Nat)
  /-- `EVT XTICK ×n`. -/
  | xticks (n : Nat)
  /-- `EVT DONE`, legal only where STATUS.BUSY = 1. -/
  | done
  /-- `EVT AFAULT`. -/
  | afault
  /-- `EVT RESET`. -/
  | reset
  deriving DecidableEq, Repr

/-- `addr(loc)` (R63, R99). Of a location that exists the offset is an address; of a `BUF[i]` past its buffer, which no legal statement
names (`ScriptStmt.legal`), it is cut to 32 bits. -/
def Loc.addr (l : Loc) : Addr := BitVec.ofNat 32 l.offset

/-- `WR loc, value` as a step of the host. -/
def writeTo (l : Loc) (v : Word) : Event := .hostWrite l.addr 8 v

/-- `RD loc` as a step of the host. -/
def readFrom (l : Loc) : Event := .hostRead l.addr 8

/-- The number a command statement writes to CMD, its operands as they stand in the script: shifted and OR-ed, never cut to their fields
(R99). The mnemonics without operands write their match column (R93). -/
def commandNumber : Instr → Nat
  | .config mode scap fcap => 0x03 ||| mode.bit.toNat <<< 8 ||| scap <<< 16 ||| fcap <<< 32
  | .frame v => 0x04 ||| v.toNat <<< 8
  | .nop => 0x00
  | .start => 0x01
  | .stop => 0x02
  | .synth => 0x05
  | .push => 0x06
  | .install => 0x07
  | .setfreq => 0x08
  | .clrerr => 0x09

/-- The steps a statement stands for, in order (R99 to R101). -/
def ScriptStmt.events (c : Config) : ScriptStmt → List Event
  | .wr l v => [writeTo l v]
  | .rd l => [readFrom l]
  | .command i => [commandWrite (BitVec.ofNat 64 (commandNumber i))]
  | .rawCommand w => [commandWrite w]
  | .fill b v => (List.range (b.size c)).map fun i => writeTo (b.loc i) v
  | .load b vs => vs.zipIdx.map fun t => writeTo (b.loc t.2) t.1
  | .wait between => readFrom .status :: between.flatMap fun es => es ++ [readFrom .status]
  | .samples n => List.replicate n .sampleTick
  | .xticks n => List.replicate n .xfadeTick
  | .done => [.jobDone]
  | .afault => [.audioFault]
  | .reset => [.reset]

/-- A read of STATUS that leaves the loop of WAIT: bit 1, BUSY, is 0 (R100). -/
def waitLeft (status : Word) : Bool := !status.getLsbD 1

/-- The host's read of STATUS, made now, leaves the loop of WAIT. -/
def pollLeaves (s : State) : Bool := (hostRead (Loc.addr .status) 8 s).response.any fun a => waitLeft a.data

/-- A step of another agent than the host, which is in its loop. -/
def Event.ofOtherAgent : Event → Bool
  | .hostRead _ _ | .hostWrite _ _ _ => false
  | .sampleTick | .xfadeTick | .jobDone | .audioFault | .reset => true

/-- `n` steps, up to the first that does not go on. -/
def stepMany : Nat → State → Result
  | 0, s => .next s
  | n + 1, s =>
    match step s with
    | .next t => stepMany n t
    | .fault f => .fault f
    | .refused f => .refused f

/-- The steps of a list, made before whatever the schedule holds. -/
def afterEvents (es : List Event) (s : State) : Result := stepMany es.length { s with schedule := es ++ s.schedule }

/-- The loop of WAIT, run from a state with these steps of the other agents between its reads: every read but the last shows BUSY = 1,
and the last shows BUSY = 0 (R100). -/
def waitRuns : List (List Event) → State → Bool
  | [], s => pollLeaves s
  | es :: rest, s =>
    !pollLeaves s && es.all Event.ofOtherAgent &&
      match afterEvents (readFrom .status :: es) s with
      | .next t => waitRuns rest t
      | .fault _ | .refused _ => false

/-- The statement may stand where the state is `s`: WR and RD name a register or an element that its buffer has (DESIGN CHOICE, log entry
22: R99 does not say what `BUF[i]` is past the buffer, which R63 does not map), a command's number is a word (R99), `LOAD` names as many values as its buffer has
elements (R100), WAIT runs its loop (R100), and `EVT DONE` finds STATUS.BUSY = 1 (R101). -/
def ScriptStmt.legal (s : State) : ScriptStmt → Bool
  | .command i => decide (commandNumber i < 2 ^ 64)
  | .load b vs => decide (vs.length = b.size s.cfg)
  | .wait between => waitRuns between s
  | .done => s.busy
  | .wr l _ | .rd l => decide (l.index < l.size s.cfg)
  | .rawCommand _ | .fill _ _ | .samples _ | .xticks _ | .afault | .reset => true

/-- The script describes an execution from the state: each statement may stand where the ones before it lead (R101). -/
def scriptLegal : List ScriptStmt → State → Bool
  | [], _ => true
  | x :: rest, s =>
    x.legal s &&
      match afterEvents (x.events s.cfg) s with
      | .next t => scriptLegal rest t
      | .fault _ | .refused _ => false

/-- A script put in the schedule: one execution, with its schedule statements as the other agents' steps (R101). -/
def runScript (script : List ScriptStmt) (s : State) : State :=
  { s with schedule := script.flatMap (ScriptStmt.events s.cfg) ++ s.schedule }

end Sys2Proof.Machine
end

