-- ==== Sys2Proof/Laws/Script.lean ====
section
/-! SUPPORT. Host scripts: the words their commands write, and the reads of WAIT. -/

namespace Sys2Proof.Machine

/-- The fields of CONFIG's word, nested as they are concatenated and OR-ed each at its own place. -/
theorem config_fields_or (fcap scap mode : Nat) :
    ((fcap <<< 16 ||| scap) <<< 7 <<< 1 ||| mode) <<< 8 ||| 3 = 3 ||| mode <<< 8 ||| scap <<< 16 ||| fcap <<< 32 := by
  have e (x : Nat) : x <<< 7 <<< 1 <<< 8 = x <<< 16 := by rw [← Nat.shiftLeft_add, ← Nat.shiftLeft_add]
  have e2 : fcap <<< 16 <<< 16 = fcap <<< 32 := by rw [← Nat.shiftLeft_add]
  rw [Nat.shiftLeft_or_distrib, e, Nat.shiftLeft_or_distrib, e2]
  generalize fcap <<< 32 = x
  generalize scap <<< 16 = y
  generalize mode <<< 8 = z
  ac_rfl

/-- A well-formed command's number is its command word (R91, R99). -/
theorem encode_toNat {i : Instr} (h : i.wf = true) : (encode i).toNat = commandNumber i := by
  cases i
  case config mode scap fcap =>
    simp only [Instr.wf, Bool.and_eq_true, decide_eq_true_eq] at h
    rw [commandNumber, ← config_fields_or]
    simp only [encode, commandWord, Instr.opcode, BitVec.toNat_append, BitVec.toNat_ofNat, BitVec.toNat_ofBool,
      Nat.mod_eq_of_lt h.1, Nat.mod_eq_of_lt h.2, Nat.zero_mod, Nat.zero_shiftLeft, Nat.zero_or, Nat.or_zero]
  case frame v => cases v <;> rfl
  all_goals rfl

/-- So a well-formed command's statement may stand anywhere, and writes that word. -/
theorem command_wf {i : Instr} (h : i.wf = true) (c : Config) (s : State) :
    (ScriptStmt.command i).legal s = true ∧ (ScriptStmt.command i).events c = [commandWrite (encode i)] := by
  rw [ScriptStmt.legal, ScriptStmt.events, ← encode_toNat h, BitVec.ofNat_toNat, BitVec.setWidth_eq]
  exact ⟨decide_eq_true (encode i).isLt, rfl⟩

/-- A read of STATUS leaves the loop of WAIT exactly where the block is not busy (R28, R100). -/
theorem pollLeaves_eq (s : State) : pollLeaves s = !s.busy := by
  have h : accessed s.cfg (Loc.addr .status) 8 = some .status := rfl
  have hb : s.statusWord.getLsbD 1 = s.busy := by
    rw [State.statusWord]
    simp only [BitVec.getLsbD_append]
    simp
  simp only [pollLeaves, hostRead, h, respond, Option.any_some, Response.data, readLoc, waitLeft, hb]

/-- WAIT reads STATUS at least once, and with nothing between its reads once more for each further round. -/
theorem wait_events_length (c : Config) (between : List (List Event)) :
    ((ScriptStmt.wait between).events c).length = 1 + (between.map fun es => es.length + 1).sum := by
  simp [ScriptStmt.events, List.length_flatMap, Nat.add_comm]

/-- A loop that runs starts from a busy block where it reads more than once, and from one that is not where it reads once. -/
theorem waitRuns_busy {between : List (List Event)} {s : State} (h : waitRuns between s = true) :
    s.busy = true ↔ between ≠ [] := by
  cases between with
  | nil => simpa [waitRuns, pollLeaves_eq] using h
  | cons es rest =>
    simp only [waitRuns, pollLeaves_eq, Bool.not_not, Bool.and_eq_true] at h
    simp [h.1.1]

end Sys2Proof.Machine
end

