-- ==== Sys2Proof/Laws/Step.lean ====
section
/-! SUPPORT. Everything one step can do, said once for each kind of agent step, and the fields a command leaves alone. -/

namespace Sys2Proof.Machine

/-- A command leaves the operands, the outputs of other agents, the instance and the model's own fields as they are. -/
theorem exec_keeps {i : Instr} {s t : State} (h : exec i s = .next t) :
    t.cmd = s.cmd ∧ t.xstepIn = s.xstepIn ∧ t.f0In = s.f0In ∧ t.shiftIn = s.shiftIn ∧ t.specIn = s.specIn
      ∧ t.irIn = s.irIn ∧ t.irOut = s.irOut ∧ t.audioOut = s.audioOut ∧ t.cfg = s.cfg ∧ t.schedule = s.schedule
      ∧ t.response = s.response ∧ t.draws = s.draws := by
  rcases exec_next h with ⟨_, rfl⟩ | ⟨e, rfl, _⟩ | ⟨_, _, _, rfl⟩ | ⟨_, rfl⟩ | ⟨m, a, b, _, _, _, _, _, _, rfl⟩
    | ⟨u, _, _, _, hu, rfl⟩ | ⟨_, _, _, _, _, rfl⟩ | ⟨_, _, _, _, rfl⟩ | ⟨_, _, _, _, rfl⟩ | ⟨_, rfl⟩
  case inr.inr.inr.inr.inr.inl =>
    obtain ⟨_, _, _, _, rfl⟩ := accept_ok hu
    split <;> simp
  all_goals simp

/-- Every command goes on: a next state on every path. -/
theorem exec_completes (i : Instr) (s : State) : (∃ t, exec i s = .next t) := by
  cases i with
  | frame v => cases v with
    | false => exact ⟨s, rfl⟩
    | true => exact issueGated_completes _ _ _ _
  | nop => exact ⟨s, rfl⟩
  | stop => exact ⟨_, rfl⟩
  | clrerr => exact ⟨_, rfl⟩
  | start => exact issueGated_completes true .stopped (fun u => .ok (startSession u)) s
  | config m a b => exact issueGated_completes _ _ _ _
  | synth => exact issueGated_completes _ _ _ _
  | push => exact issueGated_completes _ _ _ _
  | install => exact issueGated_completes _ _ _ _
  | setfreq => exact issueGated_completes _ _ _ _

/-- The state in which a command word written to CMD runs. -/
def fetched (w : Word) (s : State) : State := { s with cmd := w, response := some .written }

/-- Everything a host write can do: a bus error, a store, or a command. -/
theorem hostWrite_next {a : Addr} {n : Nat} {v : Word} {s t : State} (h : hostWrite a n v s = .next t) :
    (t = respond .busError s ∧ ∀ l, accessed s.cfg a n = some l → storeLoc s v l = none)
      ∨ (∃ l u, accessed s.cfg a n = some l ∧ l ≠ .cmd ∧ storeLoc s v l = some u ∧ t = respond .written u)
      ∨ (accessed s.cfg a n = some .cmd ∧ ∃ e, decode v = .error e ∧ t = raiseError .illegalCmd (fetched v s))
      ∨ (accessed s.cfg a n = some .cmd ∧ ∃ i, decode v = .ok i ∧ exec i (fetched v s) = .next t) := by
  unfold hostWrite at h
  split at h
  · next hn => cases h; exact .inl ⟨rfl, fun l hl => by rw [hn] at hl; cases hl⟩
  · next l hl =>
    split at h
    · next hs => cases h; exact .inl ⟨rfl, fun m hm => by rw [hl] at hm; cases hm; exact hs⟩
    · next u hu =>
      split at h
      · next hc =>
        subst hc
        simp only [storeLoc, Option.some.injEq] at hu
        subst hu
        unfold issue at h
        split at h
        · next i hi => exact .inr (.inr (.inr ⟨hl, i, hi, h⟩))
        · next e he => cases h; exact .inr (.inr (.inl ⟨hl, e, he, rfl⟩))
      · next hc => cases h; exact .inr (.inl ⟨l, u, hl, hc, hu, rfl⟩)

/-- A host write always goes on. -/
theorem hostWrite_completes (a : Addr) (n : Nat) (v : Word) (s : State) : ∃ t, hostWrite a n v s = .next t := by
  unfold hostWrite
  split
  · exact ⟨_, rfl⟩
  · split
    · exact ⟨_, rfl⟩
    · split
      · unfold issue
        split
        · exact exec_completes _ _
        · exact ⟨_, rfl⟩
      · exact ⟨_, rfl⟩

/-- A host read changes the response and nothing else. -/
theorem hostRead_eq (a : Addr) (n : Nat) (s : State) : ∃ r, hostRead a n s = respond r s := by
  unfold hostRead
  split <;> exact ⟨_, rfl⟩

/-- SAMPLE_TICK of a stopped block. -/
theorem sampleTick_stopped {s : State} (h : s.running = false) : sampleTick s = { s with audioOut := Fp.zero } := by
  simp [sampleTick, h]

/-- SAMPLE_TICK changes no more than the oscillator's phase, the edge state, the delay lines, the output and the draw count. -/
theorem sampleTick_frame (s : State) :
    sampleTick s = { s with
      oscPhase := (sampleTick s).oscPhase, edge := (sampleTick s).edge, occ := (sampleTick s).occ,
      audioOut := (sampleTick s).audioOut, draws := (sampleTick s).draws } := by
  cases h : s.running <;> simp [sampleTick, h]

/-- JOB_DONE completes the latched job. -/
theorem jobDone_next {s t : State} (h : jobDone s = .next t) : ∃ j, s.latch = some j ∧ t = completeJob j s := by
  unfold jobDone at h
  split at h
  · next j hj => cases h; exact ⟨j, hj, rfl⟩
  · cases h

/-- Everything a job's completion can do: write IR_OUT and free the latch, and for a FRAME job install or record INVALID_IR. -/
theorem completeJob_cases (j : Job) (s : State) :
    (j.isFrame = false ∧ completeJob j s = finishJob (jobResult s.cfg j) s)
      ∨ (∃ spec f0, j = .frame spec f0 ∧ allFinite (jobResult s.cfg j) = true
          ∧ completeJob j s = setOscFreq f0 (installFilter (jobResult s.cfg j) (finishJob (jobResult s.cfg j) s)))
      ∨ (j.isFrame = true ∧ allFinite (jobResult s.cfg j) = false
          ∧ completeJob j s = raiseError .invalidIr (finishJob (jobResult s.cfg j) s)) := by
  cases j with
  | frame spec f0 =>
    cases h : allFinite (jobResult s.cfg (.frame spec f0)) with
    | true => exact .inr (.inl ⟨spec, f0, rfl, rfl, by simp [completeJob, h]⟩)
    | false => exact .inr (.inr ⟨rfl, rfl, by simp [completeJob, h]⟩)
  | synth spec f0 shift => exact .inl ⟨rfl, rfl⟩

/-- Everything one step can do: nothing is left to do, or the head of the schedule is performed. -/
theorem step_next {s t : State} (h : step s = .next t) :
    (s.schedule = [] ∧ t = s) ∨ ∃ e rest, s.schedule = e :: rest ∧ perform e { s with schedule := rest } = .next t := by
  unfold step runSchedule at h
  split at h
  · next hs => cases h; exact .inl ⟨hs, rfl⟩
  · next e rest hs => exact .inr ⟨e, rest, hs, h⟩

/-- Only one address reaches CMD. -/
theorem accessed_cmd {c : Config} {a : Addr} {n : Nat} (h : accessed c a n = some .cmd) : a = cmdAddr ∧ n = 8 := by
  obtain ⟨h1, h2⟩ := accessed_some h
  refine ⟨BitVec.eq_of_toNat_eq ?_, h1⟩
  rw [locate_offset h2]
  rfl

/-- A write of a command's word to CMD issues that command. -/
theorem nextCommand_eq {s : State} {a : Addr} {n : Nat} {v : Word} {rest : List Event} {i : Instr}
    (hs : s.schedule = .hostWrite a n v :: rest) (ha : accessed s.cfg a n = some .cmd) (hi : decode v = .ok i) :
    s.nextCommand = some i := by
  simp [State.nextCommand, hs, ha, hi, Except.toOption]

/-- A command keeps a recorded error, CLRERR apart. -/
theorem exec_err {i : Instr} {s t : State} (h : exec i s = .next t) {c : ErrCode}
    (hc : s.err = some c) : t.err = some c ∨ i = .clrerr := by
  rcases exec_next h with ⟨_, rfl⟩ | ⟨e, rfl, _⟩ | ⟨_, _, _, rfl⟩ | ⟨_, rfl⟩ | ⟨m, a, b, _, _, _, _, _, _, rfl⟩
      | ⟨u, _, _, _, hu, rfl⟩ | ⟨_, _, _, _, _, rfl⟩ | ⟨_, _, _, _, rfl⟩ | ⟨_, _, _, _, rfl⟩ | ⟨rfl, rfl⟩
  case inr.inr.inr.inr.inr.inl =>
      obtain ⟨_, _, _, _, rfl⟩ := accept_ok hu
      left; split <;> simp [hc]
  case inr.inr.inr.inr.inr.inr.inr.inr.inr => exact .inr rfl
  all_goals left; simp [hc]

/-- A job's completion keeps the instance. -/
theorem completeJob_cfg (j : Job) (s : State) : (completeJob j s).cfg = s.cfg := by
  rcases completeJob_cases j s with ⟨_, h⟩ | ⟨_, _, _, _, h⟩ | ⟨_, _, h⟩ <;> rw [h] <;> simp

/-- Everything one step can do, one disjunct for each kind: nothing to do; a read; a write that is refused, stored, illegal or a
command; a sample; a crossfade tick; a job's completion; a fault of the sink; a reset. -/
theorem step_cases {s t : State} (h : step s = .next t) :
    (s.schedule = [] ∧ t = s)
      ∨ (∃ rest a n, s.schedule = .hostRead a n :: rest ∧ ∃ r, t = respond r { s with schedule := rest })
      ∨ (∃ rest a n v, s.schedule = .hostWrite a n v :: rest ∧
          (t = respond .busError { s with schedule := rest }
            ∨ (∃ l u, accessed s.cfg a n = some l ∧ l ≠ .cmd ∧ storeLoc { s with schedule := rest } v l = some u
                ∧ t = respond .written u)
            ∨ (a = cmdAddr ∧ n = 8 ∧ t = raiseError .illegalCmd (fetched v { s with schedule := rest }))
            ∨ (∃ i, a = cmdAddr ∧ n = 8 ∧ s.nextCommand = some i
                ∧ exec i (fetched v { s with schedule := rest }) = .next t)))
      ∨ (∃ rest, s.schedule = .sampleTick :: rest ∧ t = sampleTick { s with schedule := rest })
      ∨ (∃ rest, s.schedule = .xfadeTick :: rest ∧ t = xfadeTick { s with schedule := rest })
      ∨ (∃ rest j, s.schedule = .jobDone :: rest ∧ s.latch = some j ∧ t = completeJob j { s with schedule := rest })
      ∨ (∃ rest, s.schedule = .audioFault :: rest ∧ t = audioFaultEvent { s with schedule := rest })
      ∨ (∃ rest, s.schedule = .reset :: rest ∧ t = resetEvent { s with schedule := rest }) := by
  rcases step_next h with h1 | ⟨e, rest, hs, hp⟩
  · exact .inl h1
  · cases e with
    | hostRead a n =>
      obtain ⟨r, hr⟩ := hostRead_eq a n { s with schedule := rest }
      simp only [perform, hr, Host.Outcome.next.injEq] at hp
      exact .inr (.inl ⟨rest, a, n, hs, r, hp.symm⟩)
    | hostWrite a n v =>
      refine .inr (.inr (.inl ⟨rest, a, n, v, hs, ?_⟩))
      rcases hostWrite_next hp with ⟨h1, _⟩ | ⟨l, u, h1, h2, h3, h4⟩ | ⟨h1, e, _, h2⟩ | ⟨h1, i, hi, h2⟩
      · exact .inl h1
      · exact .inr (.inl ⟨l, u, h1, h2, h3, h4⟩)
      · exact .inr (.inr (.inl ⟨(accessed_cmd h1).1, (accessed_cmd h1).2, h2⟩))
      · exact .inr (.inr (.inr ⟨i, (accessed_cmd h1).1, (accessed_cmd h1).2, nextCommand_eq hs h1 hi, h2⟩))
    | sampleTick => cases hp; simp_all
    | xfadeTick => cases hp; simp_all
    | jobDone =>
      obtain ⟨j, hj, ht⟩ := jobDone_next hp
      simp only at hj
      simp_all
    | audioFault => cases hp; simp_all
    | reset => cases hp; simp_all

end Sys2Proof.Machine
end

