-- ==== Sys2Proof/Laws/Units.lean ====
section
/-! SUPPORT. What the sub-units' operations can do: the pulse generator, the crossfader and the smoother's windows; and that the
operations keep the canonical form of the block's storage. -/

namespace Sys2Proof.Machine

/-- The pulse generator puts out a pulse exactly from Low on a sample above 0, and then is High exactly on such a sample. -/
theorem pgStep_cases (e : Edge) (x : F64) :
    (Fp.lt Fp.zero x = true ∧ e = .low ∧ pgStep e x = (Fp.one, .high))
      ∨ (Fp.lt Fp.zero x = true ∧ e = .high ∧ pgStep e x = (Fp.zero, .high))
      ∨ (Fp.lt Fp.zero x = false ∧ pgStep e x = (Fp.zero, .low)) := by
  cases h : Fp.lt Fp.zero x <;> cases e <;> simp [pgStep, h]

/-- The impulse response the export view shows for an occupancy. -/
theorem exportIr_installFilter (ir : List F64) (s : State) : (installFilter ir s).exportIr = ir := by
  cases h : s.occ <;> simp [installFilter, State.exportIr, installInto, newFilter, h]

/-- A sample moves no filter in or out, and changes no impulse response. -/
theorem stepFilters_cases (c : Config) (x : F64) (o : Occupancy) :
    (o = .empty ∧ stepFilters c x o = .empty)
      ∨ (∃ a, o = .single a ∧ stepFilters c x o = .single { ir := a.ir, dl := x :: a.dl.take (c.fftSize - 1) })
      ∨ (∃ a b p, o = .dual a b p ∧ stepFilters c x o
          = .dual { ir := a.ir, dl := x :: a.dl.take (c.fftSize - 1) } { ir := b.ir, dl := x :: b.dl.take (c.fftSize - 1) } p) := by
  cases o with
  | empty => exact .inl ⟨rfl, rfl⟩
  | single a => exact .inr (.inl ⟨a, rfl, rfl⟩)
  | dual a b p => exact .inr (.inr ⟨a, b, p, rfl, rfl⟩)

/-- A crossfade tick ends the crossfade, advances it, or does nothing. -/
theorem advanceCrossfade_cases (step : F64) (o : Occupancy) :
    (∃ a b p, o = .dual a b p ∧ Fp.le Fp.one (Fp.add p step) = true ∧ advanceCrossfade step o = .single b)
      ∨ (∃ a b p, o = .dual a b p ∧ Fp.le Fp.one (Fp.add p step) = false
          ∧ advanceCrossfade step o = .dual a b (Fp.add p step))
      ∨ ((∀ a b p, o ≠ .dual a b p) ∧ advanceCrossfade step o = o) := by
  cases o with
  | empty => exact .inr (.inr ⟨by simp, rfl⟩)
  | single a => exact .inr (.inr ⟨by simp, rfl⟩)
  | dual a b p =>
    cases h : Fp.le Fp.one (Fp.add p step) with
    | true => exact .inl ⟨a, b, p, rfl, h, by simp [advanceCrossfade, h]⟩
    | false => exact .inr (.inl ⟨a, b, p, rfl, h, by simp [advanceCrossfade, h]⟩)

/-- A moved delay line of an instance keeps its length. -/
theorem shiftDelay_length {c : Config} {x : F64} {dl : List F64} (h : dl.length = c.fftSize) (hc : 1 ≤ c.fftSize) :
    (shiftDelay c x dl).length = c.fftSize := by
  simp [shiftDelay, h]
  omega

/-- The last elements of a list end it. -/
theorem lastN_suffix {α : Type} (n : Nat) (xs : List α) : lastN n xs <:+ xs := List.drop_suffix _ _

/-- How many the last elements are. -/
theorem lastN_length {α : Type} (n : Nat) (xs : List α) : (lastN n xs).length = min n xs.length := by
  simp [lastN]
  omega

/-- Every element of a pushed window was in the window or is the pushed one. -/
theorem mem_pushWindow {α : Type} {mode : SmoothMode} {n : Nat} {w : List α} {x y : α} (h : y ∈ pushWindow mode n w x) :
    y ∈ w ∨ y = x := by
  cases mode with
  | truncating => exact .inr (List.mem_singleton.mp h)
  | sliding => simpa using (lastN_suffix n (w ++ [x])).subset h

/-- A pushed window holds at most its capacity. -/
theorem pushWindow_length {α : Type} (mode : SmoothMode) {n : Nat} (w : List α) (x : α) (h : 1 ≤ n) :
    (pushWindow mode n w x).length ≤ n := by
  cases mode with
  | truncating => simpa [pushWindow] using h
  | sliding => simp [pushWindow, lastN_length]

/-- The smoothed spectrum has one value for each bin. -/
theorem smoothPush_spec_length (s : State) (x : List F64) (f0 : F64) : (smoothPush s x f0).spec.length = s.cfg.bins := by
  simp [smoothPush, meanSpectrum]

/-- The synthesizer's result has `L` values. -/
theorem jobResult_length (c : Config) (j : Job) : (jobResult c j).length = c.fftSize := by
  cases j <;> simp [jobResult, synthesize]

/-- The canonical form, field by field. -/
theorem memory_wf_iff {s : State} :
    Memory.wf s = true ↔ s.specIn.length = s.cfg.bins ∧ s.specOut.length = s.cfg.bins ∧ s.irIn.length = s.cfg.fftSize
      ∧ s.irOut.length = s.cfg.fftSize := by
  simp [Memory.wf, and_assoc]

/-- A host's store keeps the canonical form. -/
theorem storeLoc_memory_wf {s t : State} {v : Word} {l : Loc} (h : storeLoc s v l = some t) (hm : Memory.wf s = true) :
    Memory.wf t = true := by
  obtain ⟨h1, h2, h3, h4⟩ := storeLoc_lengths h
  simpa [memory_wf_iff, h1, h2, h3, h4, storeLoc_cfg h] using memory_wf_iff.mp hm

/-- The commit of an accepted push keeps the canonical form. -/
theorem accept_memory_wf {s t : State} (h : accept s = .ok t) (hm : Memory.wf s = true) : Memory.wf t = true := by
  obtain ⟨_, _, _, _, rfl⟩ := accept_ok h
  simp [memory_wf_iff, smoothPush_spec_length, memory_wf_iff.mp hm]

/-- A job's result keeps the canonical form. -/
theorem finishJob_memory_wf (j : Job) {s : State} (hm : Memory.wf s = true) :
    Memory.wf (finishJob (jobResult s.cfg j) s) = true := by
  simp [memory_wf_iff, jobResult_length, memory_wf_iff.mp hm]

/-- The buffers a RESET leaves have the canonical form. -/
theorem resetOf_memory_wf (c : Config) (draw : Nat) : Memory.wf (State.resetOf c draw) = true := by
  simp [memory_wf_iff, State.resetOf, drawnBuffer]

/-- The machine's storage after power-up has the canonical form. -/
theorem reset_memory_wf : Memory.wf State.reset = true := resetOf_memory_wf _ _

/-- WIN_LEN as a number: the two lengths, each in its 16 bits (R38). -/
theorem winLenWord_toNat (s : State) :
    s.winLenWord.toNat = s.fw.length % 2 ^ 16 * 2 ^ 16 + s.sw.length % 2 ^ 16 := by
  have h : s.sw.length % 65536 < 65536 := Nat.mod_lt _ (by norm_num)
  simp only [State.winLenWord, BitVec.toNat_append, BitVec.toNat_ofNat]
  norm_num
  rw [Nat.shiftLeft_eq, Nat.mul_comm, ← Nat.two_pow_add_eq_or_of_lt (i := 16) (by simpa using h)]

/-- ACT_CFG as a number: the capacities, each in its 16 bits, and the mode in bit 8 (R29). -/
theorem actCfgWord_toNat {s : State} (h1 : s.specCap < 2 ^ 16) (h2 : s.f0Cap < 2 ^ 16) :
    s.actCfgWord.toNat = s.f0Cap * 2 ^ 32 + s.specCap * 2 ^ 16 + s.mode.bit.toNat * 2 ^ 8 := by
  have e1 : (BitVec.ofNat 16 s.specCap).toNat = s.specCap := by rw [BitVec.toNat_ofNat, Nat.mod_eq_of_lt h1]
  have e2 : (BitVec.ofNat 16 s.f0Cap).toNat = s.f0Cap := by rw [BitVec.toNat_ofNat, Nat.mod_eq_of_lt h2]
  have k (f c b : Nat) (hc : c < 2 ^ 16) (hb : b < 2) :
      ((((((0 : Nat) <<< 16 ||| f) <<< 16 ||| c) <<< 7 ||| 0) <<< 1 ||| b) <<< 8 ||| 0) = f * 2 ^ 32 + c * 2 ^ 16 + b * 2 ^ 8 := by
    rw [Nat.or_zero, Nat.or_zero, Nat.zero_shiftLeft, Nat.zero_or, ← Nat.shiftLeft_add_eq_or_of_lt hc,
      ← Nat.shiftLeft_add_eq_or_of_lt (i := 1) (by omega)]
    simp only [Nat.shiftLeft_eq]
    ring
  have kk := k s.f0Cap s.specCap s.mode.bit.toNat h1 (by cases s.mode.bit <;> decide)
  simpa only [State.actCfgWord, BitVec.toNat_append, e1, e2, BitVec.toNat_ofBool, BitVec.toNat_ofNat, Nat.zero_mod] using kk

/-- After a push each window has at most its capacity, or is the pushed element alone (R163, R164). -/
theorem smoothPush_window_lengths (s : State) (x : List F64) (f : F64) :
    (smoothPush s x f).sw.length ≤ max 1 s.specCap ∧ (smoothPush s x f).fw.length ≤ max 1 s.f0Cap := by
  simp only [smoothPush, pushWindow, lastN]
  cases s.mode
  · simp
  · simp
    omega

@[simp] theorem afterTicks_running (s : State) (k : Nat) : (afterTicks s k).running = s.running := by
  induction k with
  | zero => rfl
  | succ k ih => simp [afterTicks, xfadeTick, ih]

@[simp] theorem afterTicks_actXstep (s : State) (k : Nat) : (afterTicks s k).actXstep = s.actXstep := by
  induction k with
  | zero => rfl
  | succ k ih => simp [afterTicks, xfadeTick, ih]

@[simp] theorem afterTicks_cfg (s : State) (k : Nat) : (afterTicks s k).cfg = s.cfg := by
  induction k with
  | zero => rfl
  | succ k ih => simp [afterTicks, xfadeTick, ih]

/-- A single filter stays through any ticks (R197). -/
theorem afterTicks_single {s : State} {a : FilterSlot} (h : s.occ = .single a) (k : Nat) : (afterTicks s k).occ = .single a := by
  induction k with
  | zero => exact h
  | succ k ih => simp [afterTicks, xfadeTick, ih, advanceCrossfade]

end Sys2Proof.Machine
end

