-- ==== Sys2Proof/Tests/Slice0.lean ====
section
/-! SUPPORT. Tests on small states. The expected values are the spec's: the words of spec/30_encoding.md R93 and R104, and the rows of
spec/95_test_vectors.md that each test names. Each `witness_` theorem shows that the hypotheses of the statement it is named after can
be met. -/

namespace Sys2Proof.Tests

-- One theorem at a time: many kernel evaluations at once would each hold a thread, and run out of memory for their stacks.
set_option Elab.async false

open Sys2Proof Sys2Proof.Machine

/-! ### Well-formedness: the ill-formed term of each check -/

theorem test_wf_accepts_widest_capacities : (Instr.config .sliding 65535 65535).wf = true := by decide
theorem test_wf_refuses_wide_scap : (Instr.config .sliding 65536 1).wf = false := by decide
theorem test_wf_refuses_wide_fcap : (Instr.config .truncating 1 65536).wf = false := by decide

theorem test_cfg_standard : Config.standard.wf = true := by decide
theorem test_cfg_refuses_odd_size : { Config.standard with fftSize := 5 }.wf = false := by decide
theorem test_cfg_refuses_size_0 : { Config.standard with fftSize := 0 }.wf = false := by decide
theorem test_cfg_refuses_size_8194 : { Config.standard with fftSize := 8194 }.wf = false := by decide
theorem test_cfg_refuses_rate_0 : { Config.standard with sampleRate := 0 }.wf = false := by decide
theorem test_cfg_refuses_rate_33_bits : { Config.standard with sampleRate := 2 ^ 32 }.wf = false := by decide
theorem test_cfg_refuses_infinite_eps : { Config.standard with eps := Fp.posInf }.wf = false := by decide
theorem test_cfg_refuses_zero_eps : { Config.standard with eps := Fp.zero }.wf = false := by decide
theorem test_cfg_refuses_spec_bound_0 : { Config.standard with specCapMax := 0 }.wf = false := by decide
theorem test_cfg_refuses_spec_bound_wide : { Config.standard with specCapMax := 65536 }.wf = false := by decide
theorem test_cfg_refuses_f0_bound_0 : { Config.standard with f0CapMax := 0 }.wf = false := by decide
theorem test_cfg_refuses_f0_bound_wide : { Config.standard with f0CapMax := 65536 }.wf = false := by decide

/-! ### Decoding: R93, R104 and section 2.6 of the vectors -/

theorem test_decode_nop : decode 0x0000000000000000#64 = .ok .nop := by decide
theorem test_decode_start : decode 0x0000000000000001#64 = .ok .start := by decide
theorem test_decode_stop : decode 0x0000000000000002#64 = .ok .stop := by decide
theorem test_decode_config : decode 0x0000003200020103#64 = .ok (.config .sliding 2 50) := by decide
theorem test_decode_config_single_shot : decode 0x0000003200020003#64 = .ok (.config .truncating 2 50) := by decide
theorem test_decode_config_no_capacities : decode 0x0000000000000103#64 = .ok (.config .sliding 0 0) := by decide
theorem test_decode_config_apart : decode 0x1234567800000103#64 = .error .mustBeZeroBitSet := by decide
theorem test_decode_config_fields : decode 0x0000123456780003#64 = .ok (.config .truncating 0x5678 0x1234) := by decide
theorem test_decode_frame : decode 0x0000000000000104#64 = .ok (.frame true) := by decide
theorem test_decode_null_frame : decode 0x0000000000000004#64 = .ok (.frame false) := by decide
theorem test_decode_synth : decode 0x0000000000000005#64 = .ok .synth := by decide
theorem test_decode_push : decode 0x0000000000000006#64 = .ok .push := by decide
theorem test_decode_install : decode 0x0000000000000007#64 = .ok .install := by decide
theorem test_decode_setfreq : decode 0x0000000000000008#64 = .ok .setfreq := by decide
theorem test_decode_clrerr : decode 0x0000000000000009#64 = .ok .clrerr := by decide
theorem test_decode_first_reserved : decode 0x000000000000000A#64 = .error .reservedOpcode := by decide
theorem test_decode_last_reserved : decode 0x00000000000000FF#64 = .error .reservedOpcode := by decide
theorem test_decode_nop_bit_8 : decode 0x0000000000000100#64 = .error .mustBeZeroBitSet := by decide
theorem test_decode_synth_bit_8 : decode 0x0000000000000105#64 = .error .mustBeZeroBitSet := by decide
theorem test_decode_frame_bit_9 : decode 0x0000000000000204#64 = .error .mustBeZeroBitSet := by decide
theorem test_decode_config_bit_9 : decode 0x0000000000000203#64 = .error .mustBeZeroBitSet := by decide
theorem test_decode_config_bit_48 : decode 0x0001000000020103#64 = .error .mustBeZeroBitSet := by decide
theorem test_decode_nop_bit_63 : decode 0x8000000000000000#64 = .error .mustBeZeroBitSet := by decide
theorem test_table_word : decodeTableWord 64 0x3200020103 = some (.config .sliding 2 50) := by decide
theorem test_table_word_refused : decodeTableWord 64 0x10A = none := by decide
theorem test_encode_config : encode (.config .sliding 2 3) = 0x0000000300020103#64 := by decide

/-! ### The instance of the vectors, and small states of it -/

/-- L = 4, FS = 8000, EPS = 1e-12, both bounds 64 (95_test_vectors). -/
def small : Config := { Config.standard with fftSize := 4 }

/-- 0.25, 2.0, 4.0, 10.0, 2000.0 (95_test_vectors, section 3). -/
def quarter : F64 := 0x3FD0000000000000#64
def two : F64 := 0x4000000000000000#64
def four : F64 := 0x4010000000000000#64
def ten : F64 := 0x4024000000000000#64
def hz2000 : F64 := 0x409F400000000000#64

/-- After RESET, with the buffers written by the host and F0_IN = 2000. -/
def stopped : State :=
  { State.resetOf small 0 with
    specIn := List.replicate 3 Fp.zero, specOut := List.replicate 3 Fp.zero
    irIn := [Fp.one, Fp.zero, Fp.zero, Fp.zero], irOut := List.replicate 4 Fp.zero, f0In := hz2000 }

/-- The same after START. -/
def running : State := startSession stopped

/-- The same with a FRAME job in flight. -/
def inFlight : State := { running with latch := some (.frame [Fp.one, Fp.one, Fp.one] hz2000) }

/-- A filter that has just heard one pulse, with impulse response `(v, 0, 0, 0)`. -/
def slot (v : F64) : FilterSlot := { ir := [v, Fp.zero, Fp.zero, Fp.zero], dl := [Fp.one, Fp.zero, Fp.zero, Fp.zero] }

/-- The state with one agent step to come. -/
def facing (e : Event) (s : State) : State := { s with schedule := [e] }

/-- STATUS after one step. -/
def statusAfter (e : Event) (s : State) : Option Word :=
  match step (facing e s) with
  | .next t => some (readLoc t .status)
  | .fault _ | .refused _ => none

/-- A location after one step. -/
def locAfter (l : Loc) (e : Event) (s : State) : Option Word :=
  match step (facing e s) with
  | .next t => some (readLoc t l)
  | .fault _ | .refused _ => none

/-! ### Commands: section 2.7 and the rules' examples -/

theorem test_nop_in_flight : statusAfter (commandWrite 0#64) inFlight = some 0x0000000000040003#64 := by decide
theorem test_start : statusAfter (commandWrite 1#64) stopped = some 0x0000000000000001#64 := by decide
theorem test_start_running : statusAfter (commandWrite 1#64) running = some 0x0000000000000305#64 := by decide
theorem test_stop_in_flight :
    statusAfter (commandWrite 2#64) { inFlight with err := some .busy } = some 0x0000000000000404#64 := by decide
theorem test_config :
    locAfter .actCfg (commandWrite 0x0000004000400103#64) { stopped with xstepIn := Fp.half }
      = some 0x0000004000400100#64 := by decide +kernel
theorem test_config_refused :
    statusAfter (commandWrite 0x0000000200410103#64) { stopped with xstepIn := Fp.half }
      = some 0x0000000000000904#64 := by decide +kernel
theorem test_frame : statusAfter (commandWrite 0x104#64) running = some 0x0000000000040003#64 := by decide +kernel
theorem test_frame_null_stopped : statusAfter (commandWrite 0x4#64) stopped = some 0#64 := by decide
theorem test_synth : statusAfter (commandWrite 5#64) stopped = some 0x0000000000080002#64 := by decide +kernel
theorem test_synth_checks_f0_first :
    statusAfter (commandWrite 5#64) { stopped with f0In := Fp.zero, shiftIn := Fp.nan, specIn := [Fp.nan, Fp.zero, Fp.zero] }
      = some 0x0000000000000504#64 := by decide +kernel
theorem test_push_second :
    locAfter (.specOut 2) (commandWrite 6#64)
      { running with specIn := List.replicate 3 Fp.one, sw := [List.replicate 3 Fp.one], fw := [hz2000] }
      = some 0x4016000000000000#64 := by decide +kernel
theorem test_push_overflows :
    statusAfter (commandWrite 6#64) { running with specIn := [0x4073500000000000#64, Fp.zero, Fp.zero] }
      = some 0x0000000000000605#64 := by decide +kernel
theorem test_install : statusAfter (commandWrite 7#64) running = some 0x0000000000010001#64 := by decide +kernel
theorem test_install_negative_infinity :
    statusAfter (commandWrite 7#64) { running with irIn := [Fp.zero, Fp.negInf, Fp.zero, Fp.zero] }
      = some 0x0000000000000805#64 := by decide +kernel
theorem test_setfreq : locAfter .oscFreq (commandWrite 8#64) running = some hz2000 := by decide +kernel
theorem test_setfreq_negative :
    statusAfter (commandWrite 8#64) { running with f0In := 0xC014000000000000#64 } = some 0x0000000000000505#64 := by
  decide +kernel
theorem test_clrerr :
    statusAfter (commandWrite 9#64) { running with err := some .invalidIr, audioFault := true, done := true }
      = some 0x0000000000000011#64 := by decide
theorem test_illegal_word_is_stored : locAfter .cmd (commandWrite 0x10A#64) running = some 0x10A#64 := by decide
theorem test_first_error_is_kept :
    statusAfter (commandWrite 0x100#64) { running with err := some .invalidF0 } = some 0x0000000000000505#64 := by decide

theorem test_fetch_word_runs_first :
    (match step (State.reset.withFetchWord 64 1) with
      | .next t => readLoc t .status
      | .fault _ | .refused _ => 0#64) = 1#64 := by decide

theorem test_script_frame :
    ScriptStmt.events small (.command (.frame true)) = [.hostWrite 0x18#32 8 0x104#64] := by decide
theorem test_script_load :
    ScriptStmt.events small (.load .specIn [Fp.zero, Fp.one, two])
      = [.hostWrite 0x10000#32 8 Fp.zero, .hostWrite 0x10008#32 8 Fp.one, .hostWrite 0x10010#32 8 two] := by decide
theorem test_script_fill_covers_buffer : (ScriptStmt.events small (.fill .irIn Fp.zero)).length = 4 := by decide
theorem test_script_config :
    ScriptStmt.events small (.command (.config .sliding 2 50)) = [.hostWrite 0x18#32 8 0x0000003200020103#64] := by decide
theorem test_script_config_is_not_cut :
    ScriptStmt.events small (.command (.config .truncating 2 65586)) = [.hostWrite 0x18#32 8 0x0001003200020003#64] := by decide
theorem test_script_number_past_word : (ScriptStmt.command (.config .truncating 2 (2 ^ 32))).legal stopped = false := by decide
theorem test_script_past_buffer :
    (ScriptStmt.wr (.specIn 2) Fp.one).legal stopped = true ∧ (ScriptStmt.wr (.specIn 3) Fp.one).legal stopped = false
      ∧ (ScriptStmt.rd (.specIn (2 ^ 29))).legal stopped = false := by decide
theorem test_wait_reads_once : ScriptStmt.events small (.wait []) = [.hostRead 0x20#32 8] := by decide

/-- A stopped block with a SYNTH job in flight. -/
def synthesizing : State := { stopped with latch := some (.synth [Fp.one, Fp.one, Fp.one] hz2000 Fp.zero) }

theorem test_wait_leaves_at_once : waitRuns [] stopped = true ∧ waitRuns [[]] stopped = false := by decide
theorem test_wait_until_done :
    waitRuns [[.sampleTick], [.jobDone]] synthesizing = true ∧ waitRuns [[.sampleTick]] synthesizing = false
      ∧ waitRuns [] synthesizing = false := by decide

/-! ### The host port: section 2.8 -/

theorem test_read_id0 :
    (hostRead 0x00000#32 8 stopped).response = some (.read 0x00001F4000000004#64) := by decide
theorem test_read_misaligned : (hostRead 0x00004#32 8 stopped).response = some .busError := by decide
theorem test_read_narrow : (hostRead 0x00020#32 4 stopped).response = some .busError := by decide
theorem test_read_unmapped : (hostRead 0x00088#32 8 stopped).response = some .busError := by decide
theorem test_read_last_bin : (hostRead 0x10010#32 8 stopped).response = some (.read 0#64) := by decide
theorem test_read_past_last_bin : (hostRead 0x10018#32 8 stopped).response = some .busError := by decide
theorem test_write_status_refused :
    locAfter .status (.hostWrite 0x00020#32 8 0xFFFF#64) stopped = some 0#64 := by decide
theorem test_write_f0 :
    locAfter .f0In (.hostWrite 0x00040#32 8 Fp.one) stopped = some Fp.one := by decide

/-! ### The other agents' steps: sections 1.1, 2.4, 2.5, 2.9 and program P2 -/

theorem test_pulse_example :
    pulseTrain .low [Fp.negOne, Fp.one, Fp.one, Fp.negOne, Fp.one] = [Fp.zero, Fp.one, Fp.zero, Fp.zero, Fp.one] := by decide
theorem test_pulse_nan : pulseTrain .low [Fp.nan, Fp.one, Fp.nan, Fp.one] = [Fp.zero, Fp.one, Fp.zero, Fp.one] := by decide
theorem test_phase_wraps :
    advancePhase 8000 hz2000 0x3FE8000000000000#64 = Fp.zero := by decide +kernel
theorem test_phase_aliases :
    advancePhase 8000 0x40C7700000000000#64 Fp.zero = Fp.half := by decide +kernel
theorem test_sample_first_pulse :
    locAfter .audioOut .sampleTick { running with occ := .single { slot two with dl := List.replicate 4 Fp.zero } }
      = some two := by decide +kernel
theorem test_sample_dual_mix :
    mix (.dual (slot two) (slot two) quarter) = two := by decide +kernel
theorem test_mix_three_quarters :
    mix (.dual (slot Fp.one) (slot four) Fp.half) = 0x3FFC000000000000#64 := by decide +kernel
theorem test_sample_stopped :
    locAfter .audioOut .sampleTick { stopped with audioOut := two } = some 0#64 := by decide
theorem test_tick_advances :
    locAfter .xfProgress .xfadeTick { running with occ := .dual (slot two) (slot four) Fp.zero, actXstep := Fp.half }
      = some Fp.half := by decide +kernel
theorem test_tick_ends :
    statusAfter .xfadeTick { running with occ := .dual (slot two) (slot four) Fp.half, actXstep := Fp.half }
      = some 0x0000000000010001#64 := by decide +kernel
theorem test_eleven_ticks_of_a_tenth :
    Fp.le Fp.one (stepSum 0x3FB999999999999A#64 10) = false ∧ Fp.le Fp.one (stepSum 0x3FB999999999999A#64 11) = true := by
  decide +kernel
theorem test_job_done_of_synth :
    statusAfter .jobDone { stopped with latch := some (.synth [Fp.one, Fp.one, Fp.one] hz2000 Fp.zero) }
      = some 0x0000000000000010#64 := by decide
theorem test_audio_fault : statusAfter .audioFault inFlight = some 0x000000000004000B#64 := by decide
theorem test_reset_configuration : locAfter .actCfg .reset inFlight = some 0x0000003200020100#64 := by decide

/-! ### Arithmetic: sections 2.2 and R198 -/

theorem test_pow10_one : pow10 Fp.one = ten := by decide +kernel
theorem test_pow10_twenty_two : pow10 0x4036000000000000#64 = 0x4480F0CF064DD592#64 := by decide +kernel
theorem test_pow10_309 : pow10 0x4073500000000000#64 = Fp.posInf := by decide +kernel
theorem test_pow10_tenth_neighbours :
    pow10Lower (Fp.scaled Fp.negOne) = 0x3FB9999999999999 ∧ pow10Upper (Fp.scaled Fp.negOne) = 0x3FB999999999999A := by
  decide +kernel
theorem test_mean_rounds :
    mean [0x4059066666666666#64, 0x40590CCCCCCCCCCD#64, 0x4059133333333333#64] = 0x40590CCCCCCCCCCD#64 := by decide +kernel
theorem test_progress_after_25_ticks : stepSum 0x3F847AE147AE147B#64 25 = 0x3FD0000000000001#64 := by decide +kernel

/-! ### Witnesses -/

theorem witness_DecodeOfEncode : (Instr.config .sliding 65535 65535).wf = true := by decide

theorem witness_EncodeOfDecode : decode 0x0000FFFFFFFF0103#64 = .ok (.config .sliding 65535 65535) := by decide

theorem witness_StepRunsDecodedCommand :
    ∃ (s : State) (w : Word) (i : Instr) (rest : List Event), s.schedule = commandWrite w :: rest ∧ decode w = .ok i :=
  ⟨facing (commandWrite 6#64) running, 6#64, .push, [], rfl, by decide⟩

theorem witness_IllegalWordIsStoredAndRecorded :
    ∃ (s : State) (w : Word) (e : DecodeError) (rest : List Event),
      s.schedule = commandWrite w :: rest ∧ decode w = .error e :=
  ⟨facing (commandWrite 10#64) running, 10#64, .reservedOpcode, [], rfl, by decide⟩

theorem witness_StepCompletesExactlyWhenEnabled :
    (facing .sampleTick stopped).nextEnabled = true
      ∧ ((facing .jobDone stopped).schedule = [.jobDone] ∧ (facing .jobDone stopped).busy = false)
      ∧ ((facing .jobDone inFlight).schedule = [.jobDone] ∧ (facing .jobDone inFlight).busy = true) := by decide

theorem witness_InstanceIsConstant : ∃ s t : State, step s = .next t := ⟨facing .audioFault stopped, _, rfl⟩

theorem witness_HostReadAnswers :
    ∃ s : State, s.cfg.wf = true ∧ (∃ a w rest, s.schedule = .hostRead a w :: rest)
      ∧ readRefused s.cfg 0x88 8 ∧ readRefused s.cfg 0x10018 8 ∧ readRefused s.cfg 0x50020 8 ∧ readRefused s.cfg 0x80 4
      ∧ readRefused s.cfg 0x81 8
      ∧ ¬ readRefused s.cfg 0x80 8 ∧ ¬ readRefused s.cfg 0x10010 8 ∧ ¬ readRefused s.cfg 0x50018 8 := by
  refine ⟨facing (.hostRead 0x80#32 8) stopped, by decide, ⟨0x80#32, 8, [], rfl⟩, ?_⟩
  simp [readRefused, mappedOffset, facing, stopped, State.resetOf, small, Config.bins, Config.half, Config.standard]

theorem witness_HostWriteRefusedExactly :
    ∃ s : State, s.cfg.wf = true ∧ (∃ a w v rest, s.schedule = .hostWrite a w v :: rest)
      ∧ writeRefused s.cfg 0x20 8 ∧ writeRefused s.cfg 0x50 8 ∧ writeRefused s.cfg 0x10018 8 ∧ writeRefused s.cfg 0x20000 8
      ∧ ¬ writeRefused s.cfg 0x18 8 ∧ ¬ writeRefused s.cfg 0x38 8 ∧ ¬ writeRefused s.cfg 0x48 8
      ∧ ¬ writeRefused s.cfg 0x10010 8 ∧ ¬ writeRefused s.cfg 0x30018 8 := by
  refine ⟨facing (.hostWrite 0x38#32 8 Fp.one) stopped, by decide, ⟨0x38#32, 8, Fp.one, [], rfl⟩, ?_⟩
  simp [writeRefused, readRefused, mappedOffset, storageOffset, facing, stopped, State.resetOf, small, Config.bins, Config.half,
    Config.standard]

/-- A running small state with one filter, facing any step, has the invariant. -/
theorem inv_of_slot (e : Event) (a : FilterSlot) (ha : a.ok small) : (facing e { running with occ := .single a }).Inv where
  cfgWf := (by decide : running.cfg.wf = true)
  memoryWf := (by decide : Memory.wf running = true)
  specCapRange := (by decide : 1 ≤ 2 ∧ 2 < 2 ^ 16)
  f0CapRange := (by decide : 1 ≤ 50 ∧ 50 < 2 ^ 16)
  swShape := ⟨(by decide : 0 < 2 ^ 16), fun w hw => by cases hw⟩
  fwShape := (by decide : 0 < 2 ^ 16)
  windowsBounded := fun _ => (by decide : 0 ≤ 2 ∧ 0 ≤ 50)
  stepValid := (by decide : validXstep running.actXstep = true)
  freqValid := .inl rfl
  occOk := ha
  stoppedEmpty := fun h => by cases h
  latchOk := fun j hj => by cases hj

theorem slot_ok (v : F64) (h : Fp.finite v = true) : (slot v).ok small := by
  refine ⟨rfl, rfl, ?_, ?_⟩
  · have : Fp.finite Fp.zero = true := by decide
    simp [slot, allFinite, h, this]
  · intro x hx
    simp only [slot, List.mem_cons, List.not_mem_nil, or_false] at hx
    rcases hx with h | h | h | h
    · exact .inr h
    all_goals exact .inl h

/-- A running block with one filter, facing a step, has the invariant. -/
theorem facing_inv (e : Event) : (facing e { running with occ := .single (slot two) }).Inv :=
  inv_of_slot e (slot two) (slot_ok two (by decide))

theorem witness_HostReadAnswers_map :
    (∃ (s : State) (o n : FilterSlot), s.occ = .dual o n Fp.half) ∧ (∀ o n p, stopped.occ ≠ .dual o n p)
      ∧ (∃ s : State, s.Inv ∧ s.occ = .single (slot two) ∧ 2 < s.cfg.bins ∧ 3 < s.cfg.fftSize)
      ∧ (∃ s : State, s.Inv ∧ s.occ = .empty ∧ 2 < s.cfg.bins ∧ 3 < s.cfg.fftSize)
      ∧ ∃ (s : State) (o n : FilterSlot) (p : F64), s.Inv ∧ s.occ = .dual o n p ∧ 2 < s.cfg.bins ∧ 3 < s.cfg.fftSize :=
  ⟨⟨{ running with occ := .dual (slot two) (slot four) Fp.half }, slot two, slot four, rfl⟩, (fun _ _ _ h => by cases h),
    ⟨_, facing_inv .sampleTick, rfl, by decide, by decide⟩,
    ⟨{ facing .sampleTick { running with occ := .single (slot two) } with occ := .empty },
      { facing_inv .sampleTick with occOk := trivial, stoppedEmpty := fun _ => rfl }, rfl, by decide, by decide⟩,
    ⟨{ facing .sampleTick { running with occ := .single (slot two) } with occ := .dual (slot two) (slot four) Fp.half }, _, _, _,
      { facing_inv .sampleTick with
        occOk := ⟨slot_ok two (by decide), slot_ok four (by decide), by decide⟩
        stoppedEmpty := fun h => by cases h }, rfl, by decide, by decide⟩⟩

theorem witness_StorageWriteReadsBack :
    ∃ (s : State) (addr : Addr) (v : Word) (rest : List Event), s.Inv ∧ addr.toNat % 8 = 0 ∧ storageOffset s.cfg addr.toNat
      ∧ s.schedule = .hostWrite addr 8 v :: rest :=
  ⟨_, 0x30018#32, Fp.one, [], facing_inv (.hostWrite 0x30018#32 8 Fp.one), by decide,
    .inr (.inr (.inr (.inr (by decide)))), rfl⟩

theorem witness_StatusShowsItsFields :
    stopped.err = none ∧ { stopped with err := some .invalidConfig }.err = some .invalidConfig ∧ stopped.occ = .empty
      ∧ stopped.latch = none ∧ inFlight.latch = some (.frame [Fp.one, Fp.one, Fp.one] hz2000)
      ∧ (stopped.specCap < 2 ^ 16 ∧ stopped.f0Cap < 2 ^ 16) ∧ (stopped.sw.length < 2 ^ 16 ∧ stopped.fw.length < 2 ^ 16) ∧ stopped.edge = .low
      ∧ { stopped with edge := .high }.edge = .high := by decide

theorem test_win_len_fields :
    readLoc { stopped with sw := [[Fp.one]], fw := [hz2000, hz2000] } .winLen = 0x0000000000020001#64 := by decide

theorem witness_BytesAreLittleEndian : wordAt stopped 0x40#32 = some hz2000 ∧ 7 < 8 := by decide

theorem witness_ErrorActionRecordsFirst : stopped.err = none ∧ { stopped with err := some .busy }.err = some .busy := by decide

theorem witness_RefusalIsPrecise :
    ∃ (i : Instr) (s u : State) (e : ErrCode), exec i { s with err := none } = .next u ∧ u.err = some e :=
  ⟨.push, { stopped with err := some .busy }, raiseError .notRunning stopped, .notRunning, rfl, rfl⟩

theorem witness_ErrorRecordWriters :
    (∃ s t : State, step s = .next t ∧ s.err = some .busy)
      ∧ ∃ s t : State, step s = .next t ∧ s.err = none ∧ t.err ≠ none :=
  ⟨⟨facing .audioFault { stopped with err := some .busy }, _, rfl, rfl⟩,
    facing (commandWrite 10#64) stopped, _, rfl, rfl, by decide⟩

/-- The two session states that the commands' statements start from: START and CONFIG, and the rest. -/
theorem witness_StartBeginsSession :
    (stopped.busy = false ∧ stopped.running = false) ∧ inFlight.busy = true
      ∧ (running.busy = false ∧ running.running = true) := by decide

theorem witness_NopHasNoEffect :
    ∃ (s : State) (rest : List Event), s.schedule = commandWrite 0#64 :: rest := ⟨facing (commandWrite 0#64) inFlight, [], rfl⟩

theorem witness_ConfigSetsLegalOperands :
    (stopped.busy = false ∧ stopped.running = false) ∧ inFlight.busy = true
      ∧ (running.busy = false ∧ running.running = true)
      ∧ (1 ≤ 64 ∧ 64 ≤ stopped.cfg.specCapMax ∧ 1 ≤ 64 ∧ 64 ≤ stopped.cfg.f0CapMax ∧ Fp.finite stopped.xstepIn = true
          ∧ Fp.lt Fp.zero stopped.xstepIn = true ∧ Fp.le stopped.xstepIn Fp.one = true)
      ∧ ¬ 65 ≤ stopped.cfg.specCapMax := by decide

theorem witness_ActCfgGivesConfigWordBack :
    ∃ (s t : State) (m : SmoothMode) (scap fcap : Nat),
      s.err = none ∧ exec (.config m scap fcap) s = .next t ∧ t.err = none :=
  ⟨stopped, setConfig .sliding 2 50 stopped.xstepIn stopped, .sliding, 2, 50, rfl, rfl, rfl⟩

theorem witness_StopTearsDown : running.running = true ∧ stopped.running = false := by decide

/-- The operands of PUSH and FRAME for each of Accept's five ways. -/
theorem witness_PushChecksThenCommits :
    (running.busy = false ∧ running.running = true) ∧ inFlight.busy = true ∧ (stopped.busy = false ∧ stopped.running = false)
      ∧ validF0 Fp.zero = false
      ∧ (validF0 running.f0In = true ∧ allFinite [Fp.nan] = false)
      ∧ validF0 (smoothPush { running with fw := [0x7FEFFFFFFFFFFFFF#64] } [] 0x7FEFFFFFFFFFFFFF#64).f0 = false
      ∧ allFinite (smoothPush running [0x4073500000000000#64, Fp.zero, Fp.zero] hz2000).spec = false
      ∧ (allFinite running.specIn = true ∧ validF0 (smoothPush running running.specIn running.f0In).f0 = true
          ∧ allFinite (smoothPush running running.specIn running.f0In).spec = true
          ∧ running.specCap < 2 ^ 16 ∧ running.f0Cap < 2 ^ 16) := by decide +kernel

theorem witness_FrameCommitsAndLatches :
    inFlight.busy = true ∧ (stopped.busy = false ∧ stopped.running = false)
      ∧ running.busy = false ∧ running.running = true ∧ accept { running with f0In := Fp.zero } = .error .invalidF0
      ∧ validF0 running.f0In = true ∧ allFinite running.specIn = true
      ∧ validF0 (smoothPush running running.specIn running.f0In).f0 = true
      ∧ allFinite (smoothPush running running.specIn running.f0In).spec = true := by
  refine ⟨by decide, by decide, by decide, by decide, rfl, ?_⟩
  decide +kernel

theorem witness_SynthLatchesOperands :
    inFlight.busy = true ∧ stopped.busy = false ∧ validF0 Fp.zero = false ∧ validF0 stopped.f0In = true
      ∧ (∃ x ∈ [Fp.one, Fp.posInf], Fp.isNaN x = true ∨ x = Fp.posInf)
      ∧ (∀ x ∈ stopped.specIn, Fp.isNaN x = false ∧ x ≠ Fp.posInf) ∧ Fp.finite Fp.posInf = false
      ∧ Fp.finite stopped.shiftIn = true := by
  refine ⟨by decide, by decide, by decide, by decide, ⟨Fp.posInf, by simp, .inr rfl⟩, ?_, by decide, by decide⟩
  intro x hx
  rw [List.eq_of_mem_replicate hx]
  decide

theorem witness_InstallByOccupancy :
    inFlight.busy = true ∧ (stopped.busy = false ∧ stopped.running = false) ∧ running.busy = false ∧ running.running = true ∧ (∃ x ∈ [Fp.zero, Fp.negInf], Fp.finite x = false)
      ∧ (∀ x ∈ running.irIn, Fp.finite x = true) ∧ running.occ = .empty
      ∧ { running with occ := .single (slot two) }.occ = .single (slot two)
      ∧ { running with occ := .dual (slot two) (slot four) Fp.half }.occ = .dual (slot two) (slot four) Fp.half := by
  refine ⟨by decide, by decide, by decide, by decide, ⟨Fp.negInf, by simp, by decide⟩, ?_, rfl, rfl, rfl⟩
  intro x hx
  have : x = Fp.one ∨ x = Fp.zero := by
    have h : x ∈ [Fp.one, Fp.zero, Fp.zero, Fp.zero] := hx
    simpa using h
  rcases this with rfl | rfl <;> decide

theorem witness_SetfreqWritesFrequency :
    inFlight.busy = true ∧ (stopped.busy = false ∧ stopped.running = false)
      ∧ running.busy = false ∧ running.running = true ∧ (Fp.finite running.f0In = true ∧ Fp.lt Fp.zero running.f0In = true)
      ∧ ¬ Fp.lt Fp.zero Fp.zero = true := by decide

theorem witness_ClrerrClearsRecord : ∃ s t : State, step s = .next t ∧ s.err ≠ none ∧ t.err = none :=
  ⟨facing (commandWrite 9#64) { stopped with err := some .busy }, _, rfl, by decide, rfl⟩

theorem witness_CommandsLeaveOtherLocations :
    ∃ (i : Instr) (s t : State), exec i s = .next t ∧ mayChange .oscPhase i = false
      ∧ ∀ l, locate s.cfg ((0x70#32 : Addr).toNat / 8 * 8) = some l → mayChange l i = false :=
  ⟨.stop, running, _, rfl, by decide, fun l hl => by cases hl; decide⟩

theorem witness_ResultWriters : ∃ s t : State, step s = .next t ∧ s.schedule.head? ≠ some .reset ∧ t.oscFreq ≠ s.oscFreq :=
  ⟨facing (commandWrite 8#64) running, setOscFreq hz2000 { running with cmd := 8#64, response := some .written }, rfl, by decide,
    by decide⟩

theorem witness_ControlWriters : ∃ s t : State, step s = .next t ∧ s.schedule.head? ≠ some .reset ∧ t.running ≠ s.running :=
  ⟨facing (commandWrite 1#64) stopped, startSession { stopped with cmd := 1#64, response := some .written }, rfl, by decide,
    by decide⟩

theorem witness_StoppedSampleIsSilent :
    ∃ (s : State) (rest : List Event), s.schedule = .sampleTick :: rest ∧ s.running = false :=
  ⟨facing .sampleTick stopped, [], rfl, rfl⟩

theorem witness_EmptySampleIsSilent :
    ∃ (s : State) (rest : List Event), s.schedule = .sampleTick :: rest ∧ s.running = true ∧ s.occ = .empty :=
  ⟨facing .sampleTick running, [], rfl, rfl, rfl⟩

theorem witness_SingleFilterSample :
    ∃ (s : State) (a : FilterSlot) (e : Edge), s.Inv ∧ s.schedule = [.sampleTick] ∧ s.running = true ∧ s.occ = .single a
      ∧ (Fp.one, e) = pgStep s.edge (if Fp.lt s.oscPhase Fp.half then Fp.one else Fp.negOne) :=
  ⟨_, slot two, .high, facing_inv .sampleTick, rfl, rfl, rfl, rfl⟩

theorem witness_DualFilterSample :
    ∃ (s : State) (o n : FilterSlot) (p : F64) (e : Edge), s.schedule = [.sampleTick] ∧ s.running = true ∧ s.occ = .dual o n p
      ∧ (Fp.one, e) = pgStep s.edge (if Fp.lt s.oscPhase Fp.half then Fp.one else Fp.negOne) :=
  ⟨facing .sampleTick { running with occ := .dual (slot two) (slot four) Fp.half }, slot two, slot four, Fp.half, .high, rfl, rfl,
    rfl, rfl⟩

theorem witness_DualFilterSample_nan :
    Fp.isNaN (sampleOf { running with
      occ := .dual { slot two with ir := [0x7FEFFFFFFFFFFFFF#64, 0x7FEFFFFFFFFFFFFF#64, Fp.zero, Fp.zero] }
        { slot two with ir := [0xFFEFFFFFFFFFFFFF#64, 0xFFEFFFFFFFFFFFFF#64, Fp.zero, Fp.zero] } Fp.half }) = true := by
  decide +kernel

theorem witness_CrossfadeTickRule :
    (∃ (s : State) (o n : FilterSlot) (p : F64), s.schedule = [.xfadeTick] ∧ s.running = true ∧ s.occ = .dual o n p
        ∧ Fp.le Fp.one (Fp.add p s.actXstep) = true)
      ∧ (∃ (s : State) (o n : FilterSlot) (p : F64), s.schedule = [.xfadeTick] ∧ s.running = true ∧ s.occ = .dual o n p
        ∧ Fp.le Fp.one (Fp.add p s.actXstep) = false)
      ∧ ∃ s : State, s.schedule = [.xfadeTick] ∧ s.running = false :=
  ⟨⟨facing .xfadeTick { running with occ := .dual (slot two) (slot four) Fp.half, actXstep := Fp.half }, slot two, slot four,
      Fp.half, rfl, rfl, rfl, by decide +kernel⟩,
    ⟨facing .xfadeTick { running with occ := .dual (slot two) (slot four) Fp.zero }, slot two, slot four, Fp.zero, rfl, rfl, rfl,
      by decide +kernel⟩,
    facing .xfadeTick stopped, rfl, rfl⟩

theorem witness_JobDoneRule :
    (∃ (s : State) (spec : List F64) (f0 : F64), s.schedule = [.jobDone] ∧ s.latch = some (.frame spec f0))
      ∧ ∃ (s : State) (spec : List F64) (f0 shift : F64), s.schedule = [.jobDone] ∧ s.latch = some (.synth spec f0 shift) :=
  ⟨⟨facing .jobDone inFlight, _, _, rfl, rfl⟩, facing .jobDone { stopped with latch := some (.synth [] hz2000 Fp.zero) }, _, _, _,
    rfl, rfl⟩

theorem witness_JobIgnoresLaterOperands :
    ∃ (s t : State) (rest : List Event), s.schedule = .jobDone :: rest ∧ step s = .next t :=
  ⟨facing .jobDone inFlight, _, [], rfl, rfl⟩

theorem witness_AudioFaultSetsBit :
    (∃ (s : State) (rest : List Event), s.schedule = .audioFault :: rest)
      ∧ ∃ s t : State, step s = .next t ∧ s.audioFault = true ∧ t.audioFault = false :=
  ⟨⟨facing .audioFault stopped, [], rfl⟩, facing (commandWrite 9#64) { stopped with audioFault := true }, _, rfl, rfl, rfl⟩

theorem witness_ResetLeavesTable : ∃ (s : State) (rest : List Event), s.schedule = .reset :: rest :=
  ⟨facing .reset inFlight, [], rfl⟩

theorem witness_StepKeepsInvariant : ∃ s t : State, s.Inv ∧ step s = .next t := ⟨_, _, facing_inv .audioFault, rfl⟩

theorem witness_ResetHasInvariant : small.wf = true := by decide

theorem witness_PhaseStaysInUnitInterval :
    ∃ s t : State, s.Inv ∧ inUnitInterval s.oscPhase = true ∧ step s = .next t :=
  ⟨_, _, facing_inv .sampleTick, by decide, rfl⟩

/-- One stands for the real number 1. -/
theorem toReal_one : SynthRef.toReal Fp.one = 1 := by
  have h : Fp.scaled Fp.one = (Fp.unitsPerOne : Int) := by decide +kernel
  rw [SynthRef.toReal, h, Int.cast_natCast, div_self]
  exact_mod_cast (by decide +kernel : Fp.unitsPerOne ≠ 0)

theorem witness_ArithmeticIsCorrectlyRounded :
    Fp.finite 0x7FEFFFFFFFFFFFFF#64 = true ∧ Fp.finite Fp.one = true ∧ SynthRef.toReal Fp.one ≠ 0 :=
  ⟨by decide, by decide, by rw [toReal_one]; exact one_ne_zero⟩

theorem witness_ArithmeticIsCorrectlyRounded_zero :
    Fp.finite 0x8000000000000000#64 = true ∧ SynthRef.toReal 0x8000000000000000#64 + SynthRef.toReal 0x8000000000000000#64 = 0
      ∧ SynthRef.toReal 0x8000000000000000#64 - SynthRef.toReal 0x8000000000000000#64 = 0 := by
  have h : Fp.scaled 0x8000000000000000#64 = 0 := by decide
  refine ⟨by decide, ?_, sub_self _⟩
  rw [SynthRef.toReal, h, Int.cast_zero, zero_div, add_zero]

theorem witness_ArithmeticIsCorrectlyRounded_infinite :
    (Fp.isNaN Fp.one = false ∧ Fp.one ≠ Fp.negInf ∧ Fp.one ≠ Fp.posInf ∧ Fp.mag Fp.one ≠ 0 ∧ Fp.finite Fp.one = true)
      ∧ (Fp.isNaN Fp.zero = false ∧ Fp.mag Fp.zero = 0 ∧ Fp.finite Fp.zero = true)
      ∧ (Fp.isNaN Fp.negInf = false ∧ Fp.isInf Fp.negInf = true) ∧ Fp.isNaN Fp.nan = true
      ∧ (Fp.isNaN (Fp.mul Fp.one Fp.negOne) = false ∧ Fp.isNaN (Fp.div Fp.one Fp.negOne) = false) := by decide +kernel

theorem witness_ComparisonsAreReal :
    Fp.finite 0x8000000000000000#64 = true ∧ Fp.finite Fp.zero = true ∧ Fp.isNaN Fp.nan = true := by decide

theorem witness_FloorAndFractionAreExact :
    Fp.finite 0x7FEFFFFFFFFFFFFF#64 = true ∧ Fp.le Fp.zero 0x7FEFFFFFFFFFFFFF#64 = true
      ∧ Fp.le Fp.zero 0x8000000000000000#64 = true := by decide

/-- A value with `2^1074` units to `2^j` of it stands for `1 / 2^j`. -/
theorem toReal_of_units {x : F64} {j : Nat} (h : Fp.scaled x * 2 ^ j = (Fp.unitsPerOne : Int)) :
    SynthRef.toReal x = 1 / 2 ^ j := by
  have hu : (Fp.unitsPerOne : ℝ) ≠ 0 := by exact_mod_cast (by decide +kernel : Fp.unitsPerOne ≠ 0)
  have h2 : (Fp.scaled x : ℝ) * 2 ^ j = (Fp.unitsPerOne : ℝ) := by exact_mod_cast h
  rw [SynthRef.toReal, ← h2]
  rw [← h2] at hu
  have h3 : (Fp.scaled x : ℝ) ≠ 0 := left_ne_zero_of_mul hu
  field_simp

theorem witness_PowerOfTwoPeriodIsExact :
    (Fp.finite (Fp.div Fp.one (Fp.ofNat 2)) = true ∧ SynthRef.toReal (Fp.div Fp.one (Fp.ofNat 2)) = 1 / 2 ^ 1)
      ∧ (Fp.finite (Fp.div 0x3CA0000000000000#64 (Fp.ofNat 1)) = true
          ∧ SynthRef.toReal (Fp.div 0x3CA0000000000000#64 (Fp.ofNat 1)) = 1 / 2 ^ 53) :=
  ⟨⟨by decide +kernel, toReal_of_units (by decide +kernel)⟩, by decide +kernel, toReal_of_units (by decide +kernel)⟩

/-- R270's fraction, where the increment is no power of two and the wrap is not at 0: FS = 8000, OSC_FREQ = 2500, phase 0.75. -/
theorem test_phase_wraps_past_zero : advancePhase 8000 0x40A3880000000000#64 0x3FE8000000000000#64 = 0x3FB0000000000000#64 := by
  decide +kernel

theorem witness_Pow10IsAccurate : Fp.finite 0x7FEFFFFFFFFFFFFF#64 = true ∧ Fp.finite 0xFFEFFFFFFFFFFFFF#64 = true := by decide

theorem witness_WindowsAfterPush : running.mode = .sliding ∧ { running with mode := .truncating }.mode = .truncating := by decide

theorem witness_SingleShotIsIdempotent :
    ∃ s : State, s.mode = .truncating ∧ s.running = true ∧ s.busy = false ∧ s.specIn.length = s.cfg.bins
      ∧ validF0 s.f0In = true ∧ allFinite s.specIn = true ∧ allFinite (s.specIn.map pow10) = true :=
  ⟨{ running with mode := .truncating }, by decide +kernel⟩

theorem witness_PulseTransitions :
    Fp.lt Fp.zero 0x0000000000000001#64 = true ∧ Fp.lt Fp.zero 0x8000000000000000#64 = false
      ∧ (Fp.isNaN Fp.nan = true ∧ Fp.mag 0x8000000000000000#64 = 0) := by decide

theorem witness_PulsesCountRisingEdges :
    (∃ (xs : List F64) (x : F64), (∀ y ∈ xs, Fp.lt Fp.zero y = false) ∧ Fp.lt Fp.zero x = true)
      ∧ ∃ s t : State, s.busy = false ∧ s.running = false ∧ exec .start s = .next t :=
  ⟨⟨[], Fp.one, fun _ h => by simp at h, by decide⟩, stopped, startSession stopped, rfl, rfl, rfl⟩

theorem witness_CrossfadeTickCount :
    ∃ (s : State) (o n : FilterSlot), s.running = true ∧ s.occ = .dual o n Fp.zero
      ∧ (∀ j, 1 ≤ j → j ≤ 1 → Fp.le Fp.one (stepSum s.actXstep j) = false) ∧ Fp.le Fp.one (stepSum s.actXstep 2) = true := by
  refine ⟨{ running with occ := .dual (slot two) (slot four) Fp.zero, actXstep := Fp.half }, slot two, slot four, rfl, rfl, ?_,
    by decide +kernel⟩
  intro j h1 h2
  obtain rfl : j = 1 := by omega
  decide +kernel

theorem witness_GainsAreMonotone :
    Fp.le Fp.zero 0x8000000000000000#64 = true ∧ Fp.le 0x8000000000000000#64 Fp.one = true ∧ Fp.le Fp.one Fp.one = true := by
  decide

theorem witness_PreemptionEndsInNewest :
    ∃ (s u t : State) (f : FilterSlot) (a b : List F64), s.running = true ∧ s.occ = .single f
      ∧ u = afterTicks (installFilter a s) 1 ∧ t = installFilter b u
      ∧ (∀ j, 1 ≤ j → j ≤ 1 → Fp.le Fp.one (stepSum s.actXstep j) = false) ∧ Fp.le Fp.one (stepSum s.actXstep 2) = true := by
  refine ⟨{ running with occ := .single (slot Fp.one), actXstep := Fp.half }, _, _, slot Fp.one, (slot two).ir, (slot four).ir, rfl,
    rfl, rfl, rfl, ?_, by decide +kernel⟩
  intro j h1 h2
  obtain rfl : j = 1 := by omega
  decide +kernel

theorem witness_FlatSpectrumReference :
    small.wf = true ∧ validF0 hz2000 = true ∧ Fp.finite Fp.one = true ∧ Fp.le Fp.zero Fp.one = true
      ∧ List.replicate 3 Fp.one = List.replicate small.bins Fp.one ∧ small.half < small.fftSize ∧ 0 ≠ small.half := by decide

theorem witness_MinimumPhaseKeepsMagnitude : small.wf = true ∧ 2 ≤ small.half := by decide

theorem witness_EnergyScaling :
    ∃ (c : Config) (spec spec' : List F64) (eps' : F64) (α : ℝ), c.wf = true ∧ 0 < α ∧ Fp.finite eps' = true
      ∧ SynthRef.toReal eps' = α * SynthRef.toReal c.eps ∧ spec.length = c.bins ∧ spec'.length = c.bins
      ∧ ∀ i < c.bins,
          (element spec i = Fp.negInf ∧ element spec' i = Fp.negInf)
            ∨ (Fp.finite (element spec i) = true ∧ Fp.finite (element spec' i) = true
                ∧ SynthRef.toReal (element spec' i) = α * SynthRef.toReal (element spec i)) := by
  have double : ∀ x y : F64, Fp.scaled y = 2 * Fp.scaled x → SynthRef.toReal y = 2 * SynthRef.toReal x := by
    intro x y h
    rw [SynthRef.toReal, SynthRef.toReal, h]
    push_cast
    ring
  refine ⟨small, [Fp.negInf, Fp.one, Fp.one], [Fp.negInf, two, two], 0x3D819799812DEA11#64, 2, by decide, two_pos, by decide,
    double _ _ (by decide +kernel), by decide, by decide, ?_⟩
  intro i hi
  have : i < 3 := hi
  interval_cases i
  · exact .inl ⟨rfl, rfl⟩
  all_goals exact .inr ⟨rfl, rfl, double Fp.one two (by decide +kernel)⟩

/-- An instance with two samples whose reference value for a silent spectrum can be worked out by hand: EPS is 1, so every logarithm
is 0. -/
def tiny : Config := { Config.standard with fftSize := 2, eps := Fp.one }

theorem witness_SynthesisIsAccurate :
    SynthRef.ValidOperands tiny [Fp.zero, Fp.zero] 0x40BF400000000000#64 Fp.zero
      ∧ SynthRef.peak 2 (SynthRef.synthRef tiny [Fp.zero, Fp.zero] 0x40BF400000000000#64 Fp.zero) = 1 := by
  refine ⟨⟨by decide, by decide, by decide, by decide, by decide⟩, ?_⟩
  have hz : SynthRef.toReal Fp.zero = 0 := by
    have h : Fp.scaled Fp.zero = 0 := by decide
    rw [SynthRef.toReal, h, Int.cast_zero, zero_div]
  have hpow : ∀ i, SynthRef.power tiny [Fp.zero, Fp.zero] i = 0 := by
    intro i
    have h : ∀ i, element [Fp.zero, Fp.zero] i = Fp.zero := by
      intro i
      rcases i with _ | _ | i <;> rfl
    rw [SynthRef.power, h, if_neg (by decide), hz, zero_mul, max_self]
  have hlog : ∀ i, SynthRef.logFull tiny [Fp.zero, Fp.zero] i = 0 := by
    intro i
    have h : ∀ i, SynthRef.logHalf tiny [Fp.zero, Fp.zero] i = 0 := by
      intro i
      rw [SynthRef.logHalf, hpow, show tiny.eps = Fp.one from rfl, toReal_one, zero_add, Real.log_one, zero_div]
    unfold SynthRef.logFull
    split <;> exact h _
  have hcep : ∀ k, SynthRef.cepstrum tiny [Fp.zero, Fp.zero] k = 0 := by
    intro k
    simp [SynthRef.cepstrum, SynthRef.dft, hlog]
  have hfold : ∀ k, SynthRef.folded tiny [Fp.zero, Fp.zero] k = 0 := by
    intro k
    simp [SynthRef.folded, hcep]
  have hmin : ∀ k, SynthRef.minPhaseLog tiny [Fp.zero, Fp.zero] k = 0 := by
    intro k
    simp [SynthRef.minPhaseLog, SynthRef.dft, hfold]
  have hhalf : ∀ i, SynthRef.halfSpectrum tiny [Fp.zero, Fp.zero] i = 1 := by
    intro i
    simp [SynthRef.halfSpectrum, hmin]
  have hshift : ∀ i, SynthRef.shifted tiny [Fp.zero, Fp.zero] Fp.zero i = 1 := by
    intro i
    simp [SynthRef.shifted, hhalf, hz, Complex.ext_iff]
  have hfull : ∀ k, SynthRef.fullSpectrum tiny [Fp.zero, Fp.zero] Fp.zero k = 1 := by
    intro k
    simp [SynthRef.fullSpectrum, hshift]
  have h0 : SynthRef.timeSignal tiny [Fp.zero, Fp.zero] Fp.zero 0 = 2 := by
    simp [SynthRef.timeSignal, hfull, show tiny.fftSize = 2 from rfl]
  have h1 : SynthRef.timeSignal tiny [Fp.zero, Fp.zero] Fp.zero 1 = 0 := by
    have : (2 : ℂ) * Real.pi * Complex.I / 2 = Real.pi * Complex.I := by ring
    simp [SynthRef.timeSignal, hfull, show tiny.fftSize = 2 from rfl, Finset.sum_range_succ, this]
  have hf : SynthRef.toReal 0x40BF400000000000#64 = 8000 := by
    have h : Fp.scaled 0x40BF400000000000#64 = 8000 * (Fp.unitsPerOne : Int) := by decide +kernel
    have hu : (Fp.unitsPerOne : ℝ) ≠ 0 := by exact_mod_cast (by decide +kernel : Fp.unitsPerOne ≠ 0)
    rw [SynthRef.toReal, h]
    push_cast
    field_simp
  have r0 : SynthRef.synthRef tiny [Fp.zero, Fp.zero] 0x40BF400000000000#64 Fp.zero 0 = 0 := by
    have h : SynthRef.centred tiny [Fp.zero, Fp.zero] Fp.zero 0 = 0 := h1
    simp [SynthRef.synthRef, h]
  have r1 : SynthRef.synthRef tiny [Fp.zero, Fp.zero] 0x40BF400000000000#64 Fp.zero 1 = 1 := by
    have h : SynthRef.centred tiny [Fp.zero, Fp.zero] Fp.zero 1 = 2 := h0
    rw [SynthRef.synthRef, h, hf, show tiny.sampleRate = 8000 from rfl, show tiny.fftSize = 2 from rfl]
    norm_num
  rw [SynthRef.peak]
  simp [Finset.range_add_one, r0, r1]

/-- A FRAME job whose result is finite, whatever accurate implementation the block has. -/
theorem witness_JobDoneRule_finite :
    ∃ (s : State) (spec : List F64) (f0 : F64), s.schedule = [.jobDone] ∧ s.latch = some (.frame spec f0)
      ∧ ∀ x ∈ synthesize s.cfg spec f0 Fp.zero, Fp.finite x = true := by
  refine ⟨facing .jobDone { State.resetOf tiny 0 with
    running := true, latch := some (.frame [Fp.zero, Fp.zero] 0x40BF400000000000#64) }, _, _, rfl, rfl, ?_⟩
  intro x hx
  obtain ⟨n, hn, rfl⟩ := List.mem_map.mp hx
  obtain ⟨hv, hp⟩ := witness_SynthesisIsAccurate
  obtain ⟨tol, _, h⟩ := (@SynthRef.synthUnit ⟨SynthRef.silentUnit⟩).accurate
  refine (h tiny _ _ _ hv ?_ ?_ n (List.mem_range.mp hn)).1
  · rw [show tiny.fftSize = 2 from rfl, hp]
    exact zpow_le_one_of_nonpos₀ (by norm_num) (by norm_num)
  · rw [show tiny.fftSize = 2 from rfl, hp]
    exact one_le_zpow₀ (by norm_num) (by norm_num)

end Sys2Proof.Tests
end

section
/-! PROOFS. Rounding to F64 (spec/00_scope.md section 5): `round` picks the nearest value of the grid of F64 magnitudes, ties to even,
and overflows exactly from half a unit past the largest finite magnitude on. -/

namespace Sys2Proof.Fp

/-! ### The integer quotient -/

/-- The rounded quotient is the quotient cut off or the next integer. -/
theorem divNearestEven_bounds (n d : ℕ) : n / d ≤ divNearestEven n d ∧ divNearestEven n d ≤ n / d + 1 := by
  simp only [divNearestEven]
  split <;> omega

/-- The rounded quotient is within a half of the quotient, and a half away from it only where it is even. -/
theorem divNearestEven_within_half {n d : ℕ} (hd : 0 < d) :
    |(divNearestEven n d : ℝ) - n / d| ≤ 1 / 2
      ∧ (|(divNearestEven n d : ℝ) - n / d| = 1 / 2 → divNearestEven n d % 2 = 0) := by
  have hdR : (0 : ℝ) < d := by exact_mod_cast hd
  have hsplit : (n : ℝ) / d = (n / d : ℕ) + (n % d : ℕ) / (d : ℝ) := by
    have h : (n : ℝ) = d * (n / d : ℕ) + (n % d : ℕ) := by exact_mod_cast (Nat.div_add_mod n d).symm
    field_simp
    linarith
  have hfrac : (n % d : ℕ) / (d : ℝ) < 1 := by
    rw [div_lt_one hdR]
    exact_mod_cast Nat.mod_lt n hd
  have hfrac0 : 0 ≤ (n % d : ℕ) / (d : ℝ) := by positivity
  have hhalf : d < 2 * (n % d) ↔ 1 / 2 < (n % d : ℕ) / (d : ℝ) := by
    rw [lt_div_iff₀ hdR, ← Nat.cast_lt (α := ℝ)]
    push_cast
    constructor <;> intro h <;> linarith
  have htie : 2 * (n % d) = d ↔ (n % d : ℕ) / (d : ℝ) = 1 / 2 := by
    rw [div_eq_iff hdR.ne', ← Nat.cast_inj (R := ℝ)]
    push_cast
    constructor <;> intro h <;> linarith
  rw [hsplit]
  simp only [divNearestEven, hhalf, htie]
  generalize (n % d : ℕ) / (d : ℝ) = f at *
  split
  case isTrue hup =>
    have habs : |((n / d + 1 : ℕ) : ℝ) - ((n / d : ℕ) + f)| = 1 - f := by
      rw [Nat.cast_add_one, add_sub_add_left_eq_sub, abs_of_nonneg (by linarith)]
    rw [habs]
    rcases hup with hgt | ⟨heq, hodd⟩
    · exact ⟨by linarith, fun h => by linarith⟩
    · exact ⟨by linarith, fun _ => by omega⟩
  case isFalse hdown =>
    have habs : |((n / d : ℕ) : ℝ) - ((n / d : ℕ) + f)| = f := by
      rw [sub_add_cancel_left, abs_neg, abs_of_nonneg hfrac0]
    rw [habs]
    push Not at hdown
    exact ⟨hdown.1, fun h => by have := hdown.2 h; omega⟩

/-- An integer within a half of `y`, and even where it is a half away: no integer is closer, and another is as close only where it is
even. -/
theorem nearest_of_within_half {m : ℕ} {y : ℝ} (hle : |(m : ℝ) - y| ≤ 1 / 2) (heven : |(m : ℝ) - y| = 1 / 2 → m % 2 = 0) (j : ℤ) :
    |(m : ℝ) - y| ≤ |(j : ℝ) - y| ∧ (|(j : ℝ) - y| = |(m : ℝ) - y| → j ≠ m → m % 2 = 0) := by
  by_cases hj : j = m
  · exact ⟨by rw [hj, Int.cast_natCast], fun _ h => absurd hj h⟩
  · have hone : (1 : ℝ) ≤ |(j : ℝ) - m| := by
      exact_mod_cast Int.one_le_abs (sub_ne_zero.mpr hj)
    have htri := abs_sub_le (j : ℝ) y m
    rw [abs_sub_comm y] at htri
    exact ⟨by linarith, fun h _ => heven (by linarith)⟩

/-! ### The grid of F64 magnitudes -/

/-- What is left of `n / d` units once the spare binary places are given up: the `m` of `roundMag`. -/
def significand (n d : ℕ) : ℕ := divNearestEven n (d * 2 ^ spareBits (n / d))

/-- The magnitude bits from the spare places and the significand. -/
theorem roundMag_eq (n d : ℕ) : roundMag n d = spareBits (n / d) * 2 ^ 52 + significand n d := rfl

/-- Giving up the spare places leaves at most 53 bits. -/
theorem lt_two_pow_spareBits (q : ℕ) : q < 2 ^ 53 * 2 ^ spareBits q := by
  simp only [spareBits]
  split
  · simpa
  · next hq =>
    have h52 : 52 ≤ q.log2 := by
      rw [Nat.le_log2 (by omega)]
      omega
    rw [← pow_add, show 53 + (q.log2 - 52) = q.log2 + 1 by omega]
    exact Nat.lt_log2_self

/-- Where places are given up, 53 bits are left. -/
theorem two_pow_spareBits_le {q : ℕ} (hs : spareBits q ≠ 0) : 2 ^ 52 * 2 ^ spareBits q ≤ q := by
  simp only [spareBits] at hs ⊢
  split at hs
  · exact absurd rfl hs
  · next hq =>
    rw [if_neg hq, ← pow_add, show 52 + (q.log2 - 52) = q.log2 by omega]
    exact Nat.log2_self_le (by omega)

/-- The significand is the quotient in units of `2^s`, rounded to nearest with ties to even. -/
theorem significand_within_half {n d : ℕ} (hd : 0 < d) :
    |(significand n d : ℝ) - n / d / 2 ^ spareBits (n / d)| ≤ 1 / 2
      ∧ (|(significand n d : ℝ) - n / d / 2 ^ spareBits (n / d)| = 1 / 2 → significand n d % 2 = 0) := by
  have h := divNearestEven_within_half (n := n) (Nat.mul_pos hd (Nat.two_pow_pos (spareBits (n / d))))
  rwa [Nat.cast_mul, Nat.cast_pow, Nat.cast_ofNat, ← div_div] at h

/-- The significand has 53 bits, or is the carry out of them. -/
theorem significand_le (n d : ℕ) : significand n d ≤ 2 ^ 53 := by
  have hlt : n / (d * 2 ^ spareBits (n / d)) < 2 ^ 53 := by
    rw [← Nat.div_div_eq_div_mul, Nat.div_lt_iff_lt_mul (by positivity)]
    exact lt_two_pow_spareBits _
  exact (divNearestEven_bounds _ _).2.trans hlt

/-- A significand with places given up has its leading bit. -/
theorem le_significand {n d : ℕ} (hs : spareBits (n / d) ≠ 0) : 2 ^ 52 ≤ significand n d := by
  refine le_trans ?_ (divNearestEven_bounds _ _).1
  rw [← Nat.div_div_eq_div_mul, Nat.le_div_iff_mul_le (by positivity)]
  exact two_pow_spareBits_le hs

/-- The magnitude bits `s · 2^52 + m` are those of `m · 2^s` units, for subnormal, normal and carried-over `m`. -/
theorem unitsOfMag_scale {s m : ℕ} (hm : m ≤ 2 ^ 53) (hs : s ≠ 0 → 2 ^ 52 ≤ m) : unitsOfMag (s * 2 ^ 52 + m) = m * 2 ^ s := by
  rcases lt_or_ge m (2 ^ 52) with hsub | hnormal
  · obtain rfl : s = 0 := by by_contra h; exact absurd (hs h) (by omega)
    rw [Nat.zero_mul, Nat.zero_add, unitsOfMag, if_pos (Nat.div_eq_of_lt hsub), pow_zero, Nat.mul_one]
  · rcases hm.lt_or_eq with hlt | rfl
    · have hexp : (s * 2 ^ 52 + m) / 2 ^ 52 = s + 1 := by omega
      have hfrac : (s * 2 ^ 52 + m) % 2 ^ 52 = m - 2 ^ 52 := by omega
      rw [unitsOfMag, hexp, hfrac, if_neg s.succ_ne_zero, Nat.add_sub_cancel, Nat.add_sub_cancel' hnormal]
    · have hexp : (s * 2 ^ 52 + 2 ^ 53) / 2 ^ 52 = s + 2 := by omega
      have hfrac : (s * 2 ^ 52 + 2 ^ 53) % 2 ^ 52 = 0 := by omega
      rw [unitsOfMag, hexp, hfrac, if_neg (by omega), show s + 2 - 1 = 1 + s by omega, pow_add, ← mul_assoc]
      rfl

/-- The units of a rounded magnitude. -/
theorem unitsOfMag_roundMag (n d : ℕ) : unitsOfMag (roundMag n d) = significand n d * 2 ^ spareBits (n / d) :=
  unitsOfMag_scale (significand_le n d) le_significand

/-- Every magnitude is a multiple of `2^t` units or below `2^52 · 2^t` of them. -/
theorem unitsOfMag_on_grid (m t : ℕ) : 2 ^ t ∣ unitsOfMag m ∨ unitsOfMag m < 2 ^ 52 * 2 ^ t := by
  rw [unitsOfMag]
  split
  · next hexp =>
    have hm : m < 2 ^ 52 := by omega
    exact .inr (hm.trans_le (Nat.le_mul_of_pos_right _ (by positivity)))
  · next hexp =>
    rcases le_or_gt t (m / 2 ^ 52 - 1) with hle | hgt
    · exact .inl (Dvd.dvd.mul_left (pow_dvd_pow 2 hle) _)
    · right
      calc (2 ^ 52 + m % 2 ^ 52) * 2 ^ (m / 2 ^ 52 - 1)
          < 2 ^ 53 * 2 ^ (m / 2 ^ 52 - 1) := Nat.mul_lt_mul_of_pos_right (by omega) (by positivity)
        _ = 2 ^ 52 * 2 ^ (m / 2 ^ 52 - 1 + 1) := by ring
        _ ≤ 2 ^ 52 * 2 ^ t := Nat.mul_le_mul_left _ (Nat.pow_le_pow_right (by omega) hgt)

/-- `k` units may be the value of an F64 as far as the places below `2^t` tell: a multiple of `2^t`, or small enough to have them. -/
def OnGrid (t : ℕ) (k : ℤ) : Prop := 2 ^ t ∣ k ∨ |k| < 2 ^ 52 * 2 ^ t

/-- No point of the grid is closer to `n / d` than the rounded value, and another one is as close only where the significand is even. -/
theorem roundMag_nearest {n d : ℕ} (hd : 0 < d) {k : ℤ} (hk : OnGrid (spareBits (n / d)) k) :
    |(unitsOfMag (roundMag n d) : ℝ) - n / d| ≤ |(k : ℝ) - n / d|
      ∧ (|(k : ℝ) - n / d| = |(unitsOfMag (roundMag n d) : ℝ) - n / d| → k ≠ unitsOfMag (roundMag n d)
          → significand n d % 2 = 0) := by
  obtain ⟨hhalf, heven⟩ := significand_within_half (n := n) hd
  have hnear := nearest_of_within_half hhalf heven
  have hfloor : spareBits (n / d) ≠ 0 → (2 : ℝ) ^ 52 * 2 ^ spareBits (n / d) ≤ n / d := fun hs =>
    le_trans (by exact_mod_cast two_pow_spareBits_le hs) (Nat.cast_div_le (α := ℝ))
  rw [unitsOfMag_roundMag, Nat.cast_mul, Nat.cast_pow, Nat.cast_ofNat, Nat.cast_mul, Nat.cast_pow, Nat.cast_ofNat]
  generalize spareBits (n / d) = s at *
  generalize (n : ℝ) / d = x at *
  have hpos : (0 : ℝ) < 2 ^ s := by positivity
  have hmultiple : ∀ j : ℝ, |j * 2 ^ s - x| = |j - x / 2 ^ s| * 2 ^ s := fun j => by
    rw [← abs_of_pos hpos, ← abs_mul, abs_of_pos hpos, sub_mul, div_mul_cancel₀ _ hpos.ne']
  by_cases hdvd : (2 : ℤ) ^ s ∣ k
  · obtain ⟨j, rfl⟩ := hdvd
    obtain ⟨hle, htie⟩ := hnear j
    rw [mul_comm ((2 : ℤ) ^ s), Int.cast_mul, Int.cast_pow, Int.cast_ofNat, hmultiple, hmultiple]
    refine ⟨mul_le_mul_of_nonneg_right hle hpos.le, fun h hne => htie (mul_right_cancel₀ hpos.ne' h) ?_⟩
    rintro rfl
    exact hne rfl
  · have hs : s ≠ 0 := fun h => hdvd (by rw [h, pow_zero]; exact one_dvd k)
    have hsmall : (k : ℝ) < 2 ^ 52 * 2 ^ s := by exact_mod_cast (le_abs_self k).trans_lt (hk.resolve_left hdvd)
    have hpower : |(significand n d : ℝ) * 2 ^ s - x| ≤ x - 2 ^ 52 * 2 ^ s := by
      rw [← neg_sub (2 ^ 52 * 2 ^ s) x, ← abs_of_nonpos (sub_nonpos.mpr (hfloor hs)), hmultiple, hmultiple]
      have h := (hnear (2 ^ 52)).1
      rw [Int.cast_pow, Int.cast_ofNat] at h
      exact mul_le_mul_of_nonneg_right h hpos.le
    rw [abs_of_neg (sub_neg.mpr (hsmall.trans_le (hfloor hs)))]
    exact ⟨by linarith, fun h => by linarith⟩

theorem two_pow_add {a b c : ℕ} (h : a + b = c) : (2 : ℝ) ^ c = 2 ^ a * 2 ^ b := by rw [← h, pow_add]

theorem two_pow_mul_two_pow {a b c e : ℕ} (h : a + b = c + e) : (2 : ℝ) ^ a * 2 ^ b = 2 ^ c * 2 ^ e := by
  rw [← pow_add, h, pow_add]

/-- A rounded magnitude is finite exactly below half a unit past the largest finite one. -/
theorem roundMag_lt_infMag_iff {n d : ℕ} (hd : 0 < d) :
    roundMag n d < infMag ↔ (n : ℝ) / d < (2 ^ 53 - 1 / 2) * 2 ^ 2045 := by
  have hinf : infMag = 2047 * 2 ^ 52 := rfl
  have hm := significand_le n d
  have hpos : (0 : ℝ) < 2 ^ 2045 := by positivity
  rw [roundMag_eq, hinf]
  rcases lt_trichotomy (spareBits (n / d)) 2045 with hs | hs | hs
  · refine iff_of_true (by omega) ?_
    have hq : n / d + 1 ≤ 2 ^ 53 * 2 ^ spareBits (n / d) := lt_two_pow_spareBits (n / d)
    calc (n : ℝ) / d < (n / d : ℕ) + 1 := by
          rw [div_lt_iff₀ (by exact_mod_cast hd)]
          exact_mod_cast Nat.lt_mul_of_div_lt (Nat.lt_succ_self (n / d)) hd
      _ ≤ 2 ^ 53 * 2 ^ spareBits (n / d) := by exact_mod_cast hq
      _ ≤ 2 ^ 53 * 2 ^ 2044 := mul_le_mul_of_nonneg_left (pow_le_pow_right₀ one_le_two (by omega)) (by positivity)
      _ = 2 ^ 52 * 2 ^ 2045 := two_pow_mul_two_pow rfl
      _ ≤ (2 ^ 53 - 1 / 2) * 2 ^ 2045 := mul_le_mul_of_nonneg_right (by norm_num) hpos.le
  · obtain ⟨hhalf, heven⟩ := significand_within_half (n := n) hd
    rw [hs] at hhalf heven ⊢
    rw [← div_lt_iff₀ hpos]
    generalize (n : ℝ) / d / 2 ^ 2045 = y at *
    obtain ⟨hlow, hhigh⟩ := abs_le.mp hhalf
    constructor
    · intro hlt
      have hm' : significand n d + 1 ≤ 2 ^ 53 := by omega
      have hmR : (significand n d : ℝ) + 1 ≤ 2 ^ 53 := by exact_mod_cast hm'
      refine lt_of_le_of_ne (by linarith) fun htie => ?_
      have hdist : |(significand n d : ℝ) - y| = 1 / 2 := by
        rw [abs_of_nonpos] <;> linarith
      have hmax : (2 : ℝ) ^ 53 = significand n d + 1 := by linarith
      have hodd : 2 ^ 53 = significand n d + 1 := by exact_mod_cast hmax
      have := heven hdist
      omega
    · intro hlt
      have hmR : (significand n d : ℝ) < 2 ^ 53 := by linarith
      have hm' : significand n d < 2 ^ 53 := by exact_mod_cast hmR
      omega
  · have hm' := le_significand (n := n) (d := d) (by omega)
    refine iff_of_false (by omega) (not_lt.mpr ?_)
    calc ((2 : ℝ) ^ 53 - 1 / 2) * 2 ^ 2045 ≤ 2 ^ 53 * 2 ^ 2045 := mul_le_mul_of_nonneg_right (by norm_num) hpos.le
      _ = 2 ^ 52 * 2 ^ 2046 := two_pow_mul_two_pow rfl
      _ ≤ 2 ^ 52 * 2 ^ spareBits (n / d) := mul_le_mul_of_nonneg_left (pow_le_pow_right₀ one_le_two (by omega)) (by positivity)
      _ ≤ (n / d : ℕ) := by exact_mod_cast two_pow_spareBits_le (q := n / d) (by omega)
      _ ≤ (n : ℝ) / d := Nat.cast_div_le

/-! ### The real value -/

/-- The factor of a sign bit. -/
def signUnit (neg : Bool) : ℤ := if neg then -1 else 1

theorem signUnit_false : signUnit false = 1 := rfl

theorem signUnit_true : signUnit true = -1 := rfl

theorem signUnit_mul_self (b : Bool) : signUnit b * signUnit b = 1 := by cases b <;> rfl

theorem signUnit_bne (a b : Bool) : signUnit (a != b) = signUnit a * signUnit b := by cases a <;> cases b <;> rfl

theorem abs_signUnit (b : Bool) : |signUnit b| = 1 := by cases b <;> rfl

/-- A signed number of units is its sign times its magnitude. -/
theorem scaled_eq (x : F64) : scaled x = signUnit (sign x) * units x := by
  cases h : sign x <;> simp [scaled, signUnit, h]

/-- Every F64 is on every grid, with either sign. -/
theorem scaled_on_grid (w : F64) (neg : Bool) (t : ℕ) : OnGrid t (signUnit neg * scaled w) := by
  have habs : |signUnit neg * scaled w| = units w := by
    rw [scaled_eq, abs_mul, abs_mul, abs_signUnit, abs_signUnit, one_mul, one_mul, Nat.abs_cast]
  rw [OnGrid, ← dvd_abs, habs]
  exact_mod_cast unitsOfMag_on_grid (mag w) t

theorem unitsPerOne_cast : (unitsPerOne : ℝ) = 2 ^ 1074 := by
  unfold unitsPerOne
  exact Nat.cast_pow 2 1074

theorem unitsPerOne_pos : (0 : ℝ) < unitsPerOne := by
  rw [unitsPerOne_cast]
  positivity

/-- The distance of a value from `± x` units, counted in units. -/
theorem abs_toReal_sub (w : F64) (neg : Bool) (x : ℝ) :
    |SynthRef.toReal w - signUnit neg * x / unitsPerOne| = |((signUnit neg * scaled w : ℤ) : ℝ) - x| / unitsPerOne := by
  have hsq : (signUnit neg : ℝ) * signUnit neg = 1 := by exact_mod_cast signUnit_mul_self neg
  have habs : |(signUnit neg : ℝ)| = 1 := by exact_mod_cast abs_signUnit neg
  have hfactor : (scaled w : ℝ) - signUnit neg * x = signUnit neg * (signUnit neg * scaled w - x) := by
    linear_combination -(scaled w : ℝ) * hsq
  rw [SynthRef.toReal, ← sub_div, abs_div, abs_of_pos unitsPerOne_pos, hfactor, abs_mul, habs, one_mul, Int.cast_mul]

theorem infMag_lt : infMag < 2 ^ 63 := by decide

theorem min_infMag_lt (m : ℕ) : min m infMag < 2 ^ 63 := (min_le_right _ _).trans_lt infMag_lt

@[simp] theorem sign_round (neg : Bool) (n d : ℕ) : sign (round neg n d) = neg := sign_pack (min_infMag_lt _)

theorem mag_round (neg : Bool) (n d : ℕ) : mag (round neg n d) = min (roundMag n d) infMag := mag_pack (min_infMag_lt _)

/-- Bit 0 is the parity of the magnitude bits. -/
theorem getLsbD_zero_eq (x : F64) : x.getLsbD 0 = decide (mag x % 2 = 1) := by
  rw [BitVec.getLsbD, Nat.testBit_zero, mag, Nat.mod_mod_of_dvd _ (by decide)]

/-- The limit of `CorrectlyRounded`, counted in units. -/
theorem overflow_limit_units :
    ((2 : ℝ) ^ (1024 : ℤ) - (2 : ℝ) ^ (970 : ℤ)) * unitsPerOne = (2 ^ 53 - 1 / 2) * 2 ^ 2045 := by
  have htop : (2 : ℝ) ^ (1024 : ℤ) = 2 ^ 54 * 2 ^ 970 := by rw [← two_pow_add (c := 1024) rfl]; exact zpow_natCast 2 1024
  have hulp : (2 : ℝ) ^ (970 : ℤ) = 2 ^ 970 := zpow_natCast 2 970
  have hscale : (2 : ℝ) ^ 2045 = 2 ^ 971 * 2 ^ 1074 := two_pow_add rfl
  have hdouble : (2 : ℝ) ^ 971 = 2 ^ 1 * 2 ^ 970 := two_pow_add rfl
  rw [unitsPerOne_cast, htop, hulp, hscale, hdouble]
  generalize (2 : ℝ) ^ 970 = t
  generalize (2 : ℝ) ^ 1074 = u
  ring

/-- `round` stays finite exactly in the range where `CorrectlyRounded` asks for a finite value. -/
theorem in_range_iff_roundMag_lt (neg : Bool) {n d : ℕ} (hd : 0 < d) :
    |signUnit neg * ((n : ℝ) / d) / unitsPerOne| < (2 : ℝ) ^ (1024 : ℤ) - (2 : ℝ) ^ (970 : ℤ) ↔ roundMag n d < infMag := by
  have hx : (0 : ℝ) ≤ n / d := div_nonneg n.cast_nonneg d.cast_nonneg
  have hU := unitsPerOne_pos
  have habs : |(signUnit neg : ℝ)| = 1 := by exact_mod_cast abs_signUnit neg
  rw [roundMag_lt_infMag_iff hd, ← overflow_limit_units, abs_div, abs_mul, habs, one_mul, abs_of_pos hU, abs_of_nonneg hx,
    div_lt_iff₀ hU]

/-- In range, `round` gives the nearest finite F64, and an even one where another is as near. -/
theorem round_nearest (neg : Bool) {n d : ℕ} (hd : 0 < d) (hlt : roundMag n d < infMag) {r : ℝ}
    (hr : r = signUnit neg * ((n : ℝ) / d) / unitsPerOne) (w : F64) :
    |SynthRef.toReal (round neg n d) - r| ≤ |SynthRef.toReal w - r|
      ∧ (|SynthRef.toReal w - r| = |SynthRef.toReal (round neg n d) - r| → SynthRef.toReal w ≠ SynthRef.toReal (round neg n d)
          → (round neg n d).getLsbD 0 = false) := by
  have hU := unitsPerOne_pos
  have hmag : mag (round neg n d) = roundMag n d := by rw [mag_round, min_eq_left hlt.le]
  have hunits : signUnit neg * scaled (round neg n d) = unitsOfMag (roundMag n d) := by
    rw [scaled_eq, sign_round, ← mul_assoc, signUnit_mul_self, one_mul, units, hmag]
  obtain ⟨hle, heven⟩ := roundMag_nearest hd (scaled_on_grid w neg (spareBits (n / d)))
  rw [hr]
  simp only [abs_toReal_sub, hunits, Int.cast_natCast]
  refine ⟨div_le_div_of_nonneg_right hle hU.le, fun htie hne => ?_⟩
  have hsig : significand n d % 2 = 0 := by
    refine heven ((div_left_inj' hU.ne').mp htie) fun heq => hne ?_
    have hsame : scaled w = scaled (round neg n d) :=
      mul_left_cancel₀ (left_ne_zero_of_mul_eq_one (signUnit_mul_self neg)) (heq.trans hunits.symm)
    rw [SynthRef.toReal, SynthRef.toReal, hsame]
  rw [getLsbD_zero_eq, hmag, roundMag_eq, decide_eq_false_iff_not]
  omega

/-- Out of range, `round` gives the infinity of the value's sign. -/
theorem round_overflow (neg : Bool) {n d : ℕ} (hd : 0 < d) (hinf : infMag ≤ roundMag n d) {r : ℝ}
    (hr : r = signUnit neg * ((n : ℝ) / d) / unitsPerOne) : round neg n d = if 0 < r then posInf else negInf := by
  have hU := unitsPerOne_pos
  have hxpos : (0 : ℝ) < n / d := by
    refine lt_of_lt_of_le ?_ (not_lt.mp ((roundMag_lt_infMag_iff hd).not.mp hinf.not_gt))
    exact mul_pos (by norm_num) (by positivity)
  rw [round, min_eq_right hinf]
  cases neg with
  | false =>
    have hpos : 0 < r := by
      rw [hr, signUnit_false, Int.cast_one, one_mul]
      exact div_pos hxpos hU
    rw [if_pos hpos]
    decide
  | true =>
    have hneg : r < 0 := by
      rw [hr, signUnit_true, Int.cast_neg, Int.cast_one, neg_one_mul]
      exact div_neg_of_neg_of_pos (neg_neg_of_pos hxpos) hU
    rw [if_neg hneg.not_gt]
    decide

/-- `round` rounds correctly. -/
theorem correctlyRounded_round (neg : Bool) {n d : ℕ} (hd : 0 < d) {r : ℝ}
    (hr : r = signUnit neg * ((n : ℝ) / d) / unitsPerOne) : SynthRef.CorrectlyRounded r (round neg n d) := by
  have hrange := in_range_iff_roundMag_lt neg (n := n) hd
  rw [← hr] at hrange
  rw [SynthRef.CorrectlyRounded]
  split
  case isTrue hin =>
    have hlt := hrange.mp hin
    have hfin : finite (round neg n d) = true := decide_eq_true (by rwa [mag_round, min_eq_left hlt.le])
    exact ⟨hfin, fun w _ => (round_nearest neg hd hlt hr w).1, fun w _ => (round_nearest neg hd hlt hr w).2⟩
  case isFalse hout => exact round_overflow neg hd (not_lt.mp (hrange.not.mp hout)) hr

end Sys2Proof.Fp
end

section
/-! PROOFS. The four F64 operations (spec/00_scope.md section 5, R11): correct rounding of finite operands, and the IEEE 754 cases of
signs, NaNs, infinities and zeros. -/

namespace Sys2Proof.Fp

/-! ### Finite operands -/

@[simp] theorem sign_neg (x : F64) : sign (neg x) = !sign x := sign_pack (mag_lt x)

@[simp] theorem mag_neg (x : F64) : mag (neg x) = mag x := mag_pack (mag_lt x)

theorem scaled_neg (x : F64) : scaled (neg x) = -scaled x := by
  rw [scaled_eq, scaled_eq, units, units, sign_neg, mag_neg]
  cases sign x <;> simp [signUnit]

@[simp] theorem finite_neg (x : F64) : finite (neg x) = finite x := by rw [finite, mag_neg, finite]

@[simp] theorem isNaN_neg (x : F64) : isNaN (neg x) = isNaN x := by rw [isNaN, mag_neg, isNaN]

theorem toReal_neg (x : F64) : SynthRef.toReal (neg x) = -SynthRef.toReal x := by
  rw [SynthRef.toReal, scaled_neg, Int.cast_neg, neg_div, SynthRef.toReal]

theorem toReal_eq (x : F64) : SynthRef.toReal x = signUnit (sign x) * units x / unitsPerOne := by
  rw [SynthRef.toReal, scaled_eq, Int.cast_mul, Int.cast_natCast]

/-- An exact zero rounds to a zero, so `ofScaled` is one rounding, whose sign is `zeroNeg` for a zero. -/
theorem ofScaled_eq_round (zeroNeg : Bool) (k : ℤ) :
    ofScaled zeroNeg k = round (if k = 0 then zeroNeg else decide (k < 0)) k.natAbs 1 := by
  rw [ofScaled]
  split
  · next hk => subst hk; cases zeroNeg <;> decide
  · rfl

/-- A signed whole number of units is rounded correctly. -/
theorem correctlyRounded_ofScaled (zeroNeg : Bool) (k : ℤ) :
    SynthRef.CorrectlyRounded (k / unitsPerOne) (ofScaled zeroNeg k) := by
  rw [ofScaled_eq_round]
  refine correctlyRounded_round _ one_pos ?_
  have hsign : k = signUnit (if k = 0 then zeroNeg else decide (k < 0)) * k.natAbs := by
    rcases lt_trichotomy k 0 with h | rfl | h
    · rw [if_neg h.ne, decide_eq_true h, signUnit_true]; omega
    · simp
    · rw [if_neg h.ne', decide_eq_false h.not_gt, signUnit_false]; omega
  rw [Nat.cast_one, div_one]
  congr 1
  rw [← Int.cast_natCast k.natAbs, ← Int.cast_mul, ← hsign]

theorem add_of_finite {a b : F64} (ha : finite a = true) (hb : finite b = true) :
    add a b = ofScaled (sign a && sign b) (scaled a + scaled b) := by
  simp [add, not_nan_of_finite ha, not_nan_of_finite hb, not_inf_of_finite ha, not_inf_of_finite hb]

theorem mul_of_finite {a b : F64} (ha : finite a = true) (hb : finite b = true) :
    mul a b = round (sign a != sign b) (units a * units b) unitsPerOne := by
  simp [mul, not_nan_of_finite ha, not_nan_of_finite hb, not_inf_of_finite ha, not_inf_of_finite hb]

theorem div_of_finite {a b : F64} (ha : finite a = true) (hb : finite b = true) (hb0 : mag b ≠ 0) :
    div a b = round (sign a != sign b) (units a * unitsPerOne) (units b) := by
  simp [div, not_nan_of_finite ha, not_nan_of_finite hb, not_inf_of_finite ha, not_inf_of_finite hb, hb0]

theorem correctlyRounded_add {a b : F64} (ha : finite a = true) (hb : finite b = true) :
    SynthRef.CorrectlyRounded (SynthRef.toReal a + SynthRef.toReal b) (add a b) := by
  rw [add_of_finite ha hb, SynthRef.toReal, SynthRef.toReal, ← add_div, ← Int.cast_add]
  exact correctlyRounded_ofScaled _ _

theorem correctlyRounded_sub {a b : F64} (ha : finite a = true) (hb : finite b = true) :
    SynthRef.CorrectlyRounded (SynthRef.toReal a - SynthRef.toReal b) (sub a b) := by
  rw [sub_eq_add_neg, ← toReal_neg]
  exact correctlyRounded_add ha ((finite_neg b).trans hb)

theorem correctlyRounded_mul {a b : F64} (ha : finite a = true) (hb : finite b = true) :
    SynthRef.CorrectlyRounded (SynthRef.toReal a * SynthRef.toReal b) (mul a b) := by
  rw [mul_of_finite ha hb]
  refine correctlyRounded_round _ (Nat.cast_pos.mp unitsPerOne_pos) ?_
  rw [toReal_eq, toReal_eq, signUnit_bne, Int.cast_mul, Nat.cast_mul]
  ring

theorem correctlyRounded_div {a b : F64} (ha : finite a = true) (hb : finite b = true) (hb0 : SynthRef.toReal b ≠ 0) :
    SynthRef.CorrectlyRounded (SynthRef.toReal a / SynthRef.toReal b) (div a b) := by
  have hunits : units b ≠ 0 := fun h => hb0 (by rw [toReal_eq, h, Nat.cast_zero, mul_zero, zero_div])
  have hmag : mag b ≠ 0 := fun h => hunits (by rw [units, h]; rfl)
  rw [div_of_finite ha hb hmag]
  refine correctlyRounded_round _ (Nat.pos_of_ne_zero hunits) ?_
  have hU := unitsPerOne_pos.ne'
  have hsq : (signUnit (sign b) : ℝ) * signUnit (sign b) = 1 := by exact_mod_cast signUnit_mul_self (sign b)
  have hsign : (signUnit (sign b) : ℝ) ≠ 0 := left_ne_zero_of_mul_eq_one hsq
  have hunitsR : (units b : ℝ) ≠ 0 := Nat.cast_ne_zero.mpr hunits
  rw [toReal_eq, toReal_eq, signUnit_bne, Int.cast_mul, Nat.cast_mul]
  generalize (unitsPerOne : ℝ) = u at *
  field_simp
  linear_combination -((signUnit (sign a) : ℝ) * units a) * hsq

/-- A zero sum is -0.0 only of two values with the sign bit set. -/
theorem sign_add_of_sum_zero {a b : F64} (ha : finite a = true) (hb : finite b = true)
    (h : SynthRef.toReal a + SynthRef.toReal b = 0) : sign (add a b) = (sign a && sign b) := by
  have hsum : scaled a + scaled b = 0 := by
    rw [SynthRef.toReal, SynthRef.toReal, ← add_div, div_eq_zero_iff] at h
    exact_mod_cast h.resolve_right unitsPerOne_pos.ne'
  rw [add_of_finite ha hb, ofScaled_eq_round, sign_round, if_pos hsum]

theorem sign_sub_of_difference_zero {a b : F64} (ha : finite a = true) (hb : finite b = true)
    (h : SynthRef.toReal a - SynthRef.toReal b = 0) : sign (sub a b) = (sign a && !sign b) := by
  rw [sub_eq_add_neg, ← toReal_neg] at h
  rw [sub, sign_add_of_sum_zero ha ((finite_neg b).trans hb) h, sign_neg]

/-! ### NaN operands and the signs of products and quotients -/

theorem isNaN_nan : isNaN nan = true := by decide

@[simp] theorem sign_pack_infMag (s : Bool) : sign (pack s infMag) = s := sign_pack infMag_lt

@[simp] theorem isInf_pack_infMag (s : Bool) : isInf (pack s infMag) = true := decide_eq_true (mag_pack infMag_lt)

theorem add_of_nan {a b : F64} (h : isNaN a = true ∨ isNaN b = true) : add a b = nan := by
  rw [← Bool.or_eq_true] at h
  rw [add, if_pos h]

theorem sub_of_nan {a b : F64} (h : isNaN a = true ∨ isNaN b = true) : sub a b = nan :=
  add_of_nan (by rwa [isNaN_neg])

theorem mul_of_nan {a b : F64} (h : isNaN a = true ∨ isNaN b = true) : mul a b = nan := by
  rw [← Bool.or_eq_true] at h
  exact if_pos h

theorem div_of_nan {a b : F64} (h : isNaN a = true ∨ isNaN b = true) : div a b = nan := by
  rw [← Bool.or_eq_true] at h
  exact if_pos h

/-- A product is the NaN or has the exclusive or of the operands' signs. -/
theorem mul_nan_or_sign (a b : F64) : mul a b = nan ∨ sign (mul a b) = (sign a != sign b) := by
  simp only [mul]
  split
  · exact .inl rfl
  · split
    · split
      · exact .inl rfl
      · exact .inr (sign_pack_infMag _)
    · exact .inr (sign_round _ _ _)

/-- A quotient is the NaN or has the exclusive or of the operands' signs. -/
theorem div_nan_or_sign (a b : F64) : div a b = nan ∨ sign (div a b) = (sign a != sign b) := by
  simp only [div]
  split
  · exact .inl rfl
  · split
    · split
      · exact .inl rfl
      · exact .inr (sign_pack_infMag _)
    · split
      · exact .inr (sign_pack (Nat.two_pow_pos 63))
      · split
        · split
          · exact .inl rfl
          · exact .inr (sign_pack_infMag _)
        · exact .inr (sign_round _ _ _)

theorem ne_nan_of_not_isNaN {x : F64} (h : isNaN x = false) : x ≠ nan := by
  rintro rfl
  rw [isNaN_nan] at h
  cases h

/-! ### Infinities and zero divisors -/

theorem not_nan_of_inf {x : F64} (h : isInf x = true) : isNaN x = false := by
  simp only [isInf, isNaN, decide_eq_true_eq, decide_eq_false_iff_not] at h ⊢
  omega

theorem mag_of_isInf {x : F64} (h : isInf x = true) : mag x = infMag := of_decide_eq_true h

theorem mag_ne_zero_of_inf {x : F64} (h : isInf x = true) : mag x ≠ 0 := by
  rw [mag_of_isInf h]
  decide

theorem neg_neg_eq (x : F64) : neg (neg x) = x :=
  ext_sign_mag (by simp) (by simp)

theorem neg_posInf : neg posInf = negInf := by decide

theorem neg_negInf : neg negInf = posInf := by decide

@[simp] theorem isInf_neg (x : F64) : isInf (neg x) = isInf x := by rw [isInf, mag_neg, isInf]

/-- Beside an infinity's opposite, an infinity has its own sign. -/
theorem sign_eq_of_isInf {a i : F64} (hi : isInf i = true) (ha : isInf a = true) (hne : a ≠ neg i) : sign a = sign i := by
  by_contra h
  refine hne (ext_sign_mag ?_ ?_)
  · rw [sign_neg]; exact Bool.eq_not.mpr h
  · rw [mag_neg, mag_of_isInf ha, mag_of_isInf hi]

/-- An infinity stays in a sum with anything but its opposite and NaN. -/
theorem add_inf_left {i a : F64} (hi : isInf i = true) (ha : isNaN a = false) (hne : a ≠ neg i) : add i a = i := by
  have hsign := sign_eq_of_isInf (a := a) hi
  cases hinf : isInf a with
  | true => simp [add, not_nan_of_inf hi, ha, hi, hinf, hsign hinf hne]
  | false => simp [add, not_nan_of_inf hi, ha, hi, hinf]

theorem add_inf_right {i a : F64} (hi : isInf i = true) (ha : isNaN a = false) (hne : a ≠ neg i) : add a i = i := by
  cases hinf : isInf a with
  | true =>
    have hsign := sign_eq_of_isInf hi hinf hne
    have heq : a = i := ext_sign_mag hsign (by rw [mag_of_isInf hinf, mag_of_isInf hi])
    rw [heq]
    exact add_inf_left hi (not_nan_of_inf hi) (heq ▸ hne)
  | false => simp [add, not_nan_of_inf hi, ha, hi, hinf]

theorem sub_inf_left {i a : F64} (hi : isInf i = true) (ha : isNaN a = false) (hne : a ≠ i) : sub i a = i := by
  refine add_inf_left hi ((isNaN_neg a).trans ha) fun h => hne ?_
  rw [← neg_neg_eq a, h, neg_neg_eq]

theorem sub_inf_right {i a : F64} (hi : isInf i = true) (ha : isNaN a = false) (hne : a ≠ i) : sub a i = neg i :=
  add_inf_right ((isInf_neg i).trans hi) ha (by rwa [neg_neg_eq])

/-- A product with an infinite factor. -/
theorem mul_of_inf {a b : F64} (ha : isNaN a = false) (hb : isNaN b = false) (h : isInf a = true ∨ isInf b = true) :
    mul a b = if mag a = 0 ∨ mag b = 0 then nan else pack (sign a != sign b) infMag := by
  have hinf : (isInf a || isInf b) = true := by rwa [Bool.or_eq_true]
  simp [mul, ha, hb, hinf]

theorem isNaN_mul_inf_zero {i a : F64} (hi : isInf i = true) (ha : isNaN a = false) (h0 : mag a = 0) :
    isNaN (mul i a) = true ∧ isNaN (mul a i) = true := by
  rw [mul_of_inf (not_nan_of_inf hi) ha (.inl hi), mul_of_inf ha (not_nan_of_inf hi) (.inr hi), if_pos (.inr h0), if_pos (.inl h0)]
  exact ⟨isNaN_nan, isNaN_nan⟩

theorem isInf_mul_inf {i a : F64} (hi : isInf i = true) (ha : isNaN a = false) (h0 : mag a ≠ 0) :
    isInf (mul i a) = true ∧ isInf (mul a i) = true := by
  have hi0 := mag_ne_zero_of_inf hi
  rw [mul_of_inf (not_nan_of_inf hi) ha (.inl hi), mul_of_inf ha (not_nan_of_inf hi) (.inr hi), if_neg (not_or.mpr ⟨hi0, h0⟩),
    if_neg (not_or.mpr ⟨h0, hi0⟩)]
  exact ⟨isInf_pack_infMag _, isInf_pack_infMag _⟩

theorem div_inf_inf {a i : F64} (ha : isInf a = true) (hi : isInf i = true) : div a i = nan := by
  simp [div, not_nan_of_inf ha, not_nan_of_inf hi, ha, hi]

theorem div_inf_finite {i a : F64} (hi : isInf i = true) (ha : finite a = true) : div i a = pack (sign i != sign a) infMag := by
  simp [div, not_nan_of_inf hi, hi, not_nan_of_finite ha, not_inf_of_finite ha]

theorem div_finite_inf {a i : F64} (ha : finite a = true) (hi : isInf i = true) : div a i = pack (sign a != sign i) 0 := by
  simp [div, not_nan_of_inf hi, hi, not_nan_of_finite ha, not_inf_of_finite ha]

/-- A quotient by a zero. -/
theorem div_zero_divisor {a z : F64} (ha : finite a = true) (hz : mag z = 0) :
    div a z = if mag a = 0 then nan else pack (sign a != sign z) infMag := by
  have hfin : finite z = true := by rw [finite, hz]; rfl
  simp [div, not_nan_of_finite ha, not_inf_of_finite ha, not_nan_of_finite hfin, not_inf_of_finite hfin, hz]

/-! ### The statement -/

/-- Settles O45: correct rounding of the four operations is `correctlyRounded_round` at the exact result of each; the IEEE 754 cases
are the branches of the operations. -/
theorem arithmeticIsCorrectlyRounded : Obligations.ArithmeticIsCorrectlyRounded := by
  unfold Obligations.ArithmeticIsCorrectlyRounded
  have hpos : isInf posInf = true := by decide
  have hneg : isInf negInf = true := by decide
  refine ⟨fun a b ha hb => ?finite, fun a b => ?signs, fun a ha => ?infinite, by decide, fun a z ha hz => ?zeroDivisor⟩
  case finite =>
    exact ⟨correctlyRounded_add ha hb, correctlyRounded_sub ha hb, correctlyRounded_mul ha hb, correctlyRounded_div ha hb,
      sign_add_of_sum_zero ha hb, sign_sub_of_difference_zero ha hb⟩
  case signs =>
    refine ⟨fun h => (mul_nan_or_sign a b).resolve_left (ne_nan_of_not_isNaN h),
      fun h => (div_nan_or_sign a b).resolve_left (ne_nan_of_not_isNaN h), fun h => ?_⟩
    rw [add_of_nan h, sub_of_nan h, mul_of_nan h, div_of_nan h]
    exact ⟨isNaN_nan, isNaN_nan, isNaN_nan, isNaN_nan⟩
  case infinite =>
    refine ⟨fun hne => ⟨?_, ?_, ?_⟩, fun hne => ⟨?_, ?_, ?_, ?_⟩, sub_inf_left hneg ha, fun i hi => ?factor⟩
    · exact add_inf_left hpos ha (neg_posInf ▸ hne)
    · exact add_inf_right hpos ha (neg_posInf ▸ hne)
    · exact (sub_inf_right hneg ha hne).trans neg_negInf
    · exact add_inf_left hneg ha (neg_negInf ▸ hne)
    · exact add_inf_right hneg ha (neg_negInf ▸ hne)
    · exact (sub_inf_right hpos ha hne).trans neg_posInf
    · exact sub_inf_left hpos ha hne
    case factor =>
      have hi' : isInf i = true := by
        rcases List.mem_pair.mp hi with rfl | rfl <;> assumption
      refine ⟨isNaN_mul_inf_zero hi' ha, isInf_mul_inf hi' ha, fun hinf => ?_, fun hfin => ?_⟩
      · rw [div_inf_inf hinf hi', isNaN_nan]
      · rw [div_inf_finite hi' hfin, div_finite_inf hfin hi']
        exact ⟨isInf_pack_infMag _, mag_pack (Nat.two_pow_pos 63)⟩
  case zeroDivisor =>
    rw [div_zero_divisor ha hz]
    refine ⟨fun h0 => ?_, fun h0 => ?_⟩
    · rw [if_pos h0, isNaN_nan]
    · rw [if_neg h0, isInf_pack_infMag]

end Sys2Proof.Fp
end

section
/-! PROOFS. The order of finite F64 values is that of their units, and a whole number of units that fits in 53 bits is rounded to
itself. From these: what the oscillator's phase (spec/45_sample_domain.md R270) and the crossfade's progress (spec/43_crossfader.md R197)
need of the arithmetic. -/

namespace Sys2Proof.Fp

/-! ### The order of the units -/

/-- A greater magnitude has more units. -/
theorem unitsOfMag_strictMono : StrictMono unitsOfMag := by
  refine strictMono_nat_of_lt_succ fun m => ?_
  unfold unitsOfMag
  have hcarry : (m + 1) / 2 ^ 52 = m / 2 ^ 52 ∧ (m + 1) % 2 ^ 52 = m % 2 ^ 52 + 1
      ∨ (m + 1) / 2 ^ 52 = m / 2 ^ 52 + 1 ∧ (m + 1) % 2 ^ 52 = 0 ∧ m % 2 ^ 52 = 2 ^ 52 - 1 := by omega
  rcases hcarry with ⟨hexp, hfrac⟩ | ⟨hexp, hfrac, hfull⟩
  · rw [hexp, hfrac]
    split
    · exact Nat.lt_succ_self m
    · exact Nat.mul_lt_mul_of_pos_right (by omega) (by positivity)
  · rw [hexp, hfrac, hfull, if_neg (Nat.succ_ne_zero _), Nat.add_sub_cancel]
    split
    · next hzero => rw [hzero]; omega
    · next hexp0 =>
      obtain ⟨e, he⟩ := Nat.exists_eq_succ_of_ne_zero hexp0
      rw [he, Nat.succ_sub_one, pow_succ 2 e]
      have := Nat.two_pow_pos e
      generalize 2 ^ e = t at *
      omega

/-- Finite values are in the order of their signed units. -/
theorem key_lt_key_iff (a b : F64) : key a < key b ↔ scaled a < scaled b := by
  have hlt := unitsOfMag_strictMono.lt_iff_lt (a := mag a) (b := mag b)
  have hgt := unitsOfMag_strictMono.lt_iff_lt (a := mag b) (b := mag a)
  have ha0 := unitsOfMag_strictMono.lt_iff_lt (a := 0) (b := mag a)
  have hb0 := unitsOfMag_strictMono.lt_iff_lt (a := 0) (b := mag b)
  have h0 : unitsOfMag 0 = 0 := rfl
  rw [h0] at ha0 hb0
  simp only [key, scaled, units]
  cases sign a <;> cases sign b <;> simp only [Bool.false_eq_true, if_true, if_false] <;> omega

/-- `<` of finite values, in units. -/
theorem lt_iff_scaled {a b : F64} (ha : finite a = true) (hb : finite b = true) : lt a b = true ↔ scaled a < scaled b := by
  simp [lt, not_nan_of_finite ha, not_nan_of_finite hb, key_lt_key_iff]

/-- `≤` of finite values, in units. -/
theorem le_iff_scaled {a b : F64} (ha : finite a = true) (hb : finite b = true) : le a b = true ↔ scaled a ≤ scaled b := by
  have h := key_lt_key_iff b a
  simp only [le, not_nan_of_finite ha, not_nan_of_finite hb, Bool.not_false, Bool.true_and, decide_eq_true_eq]
  omega

theorem finite_zero : finite zero = true := by decide

theorem scaled_zero : scaled zero = 0 := by decide

theorem finite_one : finite one = true := by decide

theorem scaled_one : scaled one = unitsPerOne := by decide +kernel

/-- What is no NaN and not at or above `b` is below it. -/
theorem lt_of_not_le {a b : F64} (ha : isNaN a = false) (hb : isNaN b = false) (h : le b a = false) : lt a b = true := by
  simp only [le, lt, ha, hb, Bool.not_false, Bool.true_and, decide_eq_true_eq, decide_eq_false_iff_not] at h ⊢
  omega

/-- A number of units that is not negative is rounded to a value that is not below 0. -/
theorem zero_le_ofScaled (zeroNeg : Bool) {k : ℤ} (hk : 0 ≤ k) : le zero (ofScaled zeroNeg k) = true := by
  have hnan := round_not_nan (if k = 0 then zeroNeg else decide (k < 0)) k.natAbs 1
  have hkey0 : key zero = 0 := by decide
  rw [ofScaled_eq_round, le, hnan, hkey0, show isNaN zero = false by decide]
  simp only [Bool.not_false, Bool.true_and, decide_eq_true_eq]
  rcases hk.eq_or_lt with rfl | hpos
  · cases zeroNeg <;> decide
  · simp only [key, sign_round, if_neg hpos.ne', decide_eq_false hk.not_gt, Bool.false_eq_true, if_false]
    exact Int.natCast_nonneg _

theorem isNaN_ofScaled (zeroNeg : Bool) (k : ℤ) : isNaN (ofScaled zeroNeg k) = false := by
  rw [ofScaled_eq_round]
  exact round_not_nan _ _ _

/-- Between 0 and an upper value that is finite, a value is finite. -/
theorem finite_of_between {x b : F64} (hb : finite b = true) (h0 : le zero x = true) (h1 : lt x b = true) :
    finite x = true := by
  have hkey0 : key zero = 0 := by decide
  simp only [le, lt, Bool.and_eq_true, decide_eq_true_eq, hkey0] at h0 h1
  obtain ⟨-, hx⟩ := h0
  obtain ⟨-, hlt⟩ := h1
  simp only [finite, decide_eq_true_eq, key] at hb hx hlt ⊢
  split_ifs at hx hlt <;> omega

end Sys2Proof.Fp

namespace Sys2Proof.Machine

/-- The interval [0, 1), in units. -/
theorem inUnitInterval_iff {p : F64} :
    inUnitInterval p = true ↔ Fp.finite p = true ∧ 0 ≤ Fp.scaled p ∧ Fp.scaled p < Fp.unitsPerOne := by
  have hunits (hp : Fp.finite p = true) :
      inUnitInterval p = true ↔ 0 ≤ Fp.scaled p ∧ Fp.scaled p < Fp.unitsPerOne := by
    rw [inUnitInterval, Bool.and_eq_true, Fp.le_iff_scaled Fp.finite_zero hp, Fp.lt_iff_scaled hp Fp.finite_one, Fp.scaled_zero,
      Fp.scaled_one]
  constructor
  · intro h
    have hp : Fp.finite p = true := by
      rw [inUnitInterval, Bool.and_eq_true] at h
      exact Fp.finite_of_between Fp.finite_one h.1 h.2
    exact ⟨hp, (hunits hp).mp h⟩
  · rintro ⟨hp, h⟩
    exact (hunits hp).mpr h

theorem inUnitInterval_zero : inUnitInterval Fp.zero = true := by decide

/-- An f0 that a command takes, in units. -/
theorem validF0_iff {f : F64} : validF0 f = true ↔ Fp.finite f = true ∧ 0 < Fp.scaled f := by
  rw [validF0, Bool.and_eq_true]
  exact and_congr_right fun hf => by rw [Fp.lt_iff_scaled Fp.finite_zero hf, Fp.scaled_zero]

/-- The progress of a crossfade that has not reached 1 stays in [0, 1) (R197). -/
theorem inUnitInterval_add {p x : F64} (hp : inUnitInterval p = true) (hx : validXstep x = true)
    (hlt : Fp.le Fp.one (Fp.add p x) = false) : inUnitInterval (Fp.add p x) = true := by
  obtain ⟨hpfin, hp0, -⟩ := inUnitInterval_iff.mp hp
  rw [validXstep, Bool.and_eq_true, Bool.and_eq_true] at hx
  obtain ⟨⟨hxfin, hx0⟩, -⟩ := hx
  rw [Fp.lt_iff_scaled Fp.finite_zero hxfin, Fp.scaled_zero] at hx0
  rw [Fp.add_of_finite hpfin hxfin] at hlt ⊢
  rw [inUnitInterval, Bool.and_eq_true]
  exact ⟨Fp.zero_le_ofScaled _ (by omega),
    Fp.lt_of_not_le (Fp.isNaN_ofScaled _ _) (Fp.not_nan_of_finite Fp.finite_one) hlt⟩

end Sys2Proof.Machine
end

section
/-! PROOFS. The invariant of the block (O42): the occupancies and jobs that the operations make are well formed, every named update keeps
the invariant, and so does every step. -/

namespace Sys2Proof.Machine

/-! ### What SAMPLE_TICK writes -/

@[simp] theorem sampleTick_occ (s : State) :
    (sampleTick s).occ = if s.running then stepFilters s.cfg (pulseOf s) s.occ else s.occ := by
  cases h : s.running <;> simp [sampleTick, h]

@[simp] theorem sampleTick_oscPhase (s : State) :
    (sampleTick s).oscPhase = if s.running then advancePhase s.cfg.sampleRate s.oscFreq s.oscPhase else s.oscPhase := by
  cases h : s.running <;> simp [sampleTick, h]

/-! ### Well-formed occupancies (R47, R48) -/

/-- A pulse is 0.0 or 1.0 (R180). -/
theorem pulseOf_zero_or_one (s : State) : pulseOf s = Fp.zero ∨ pulseOf s = Fp.one := by
  rcases pgStep_cases s.edge (oscSample s.oscPhase) with ⟨-, -, h⟩ | ⟨-, -, h⟩ | ⟨-, h⟩ <;> simp [pulseOf, h]

theorem newFilter_ok {c : Config} {ir : List F64} (hlen : ir.length = c.fftSize) (hfin : allFinite ir = true) :
    (newFilter c ir).ok c :=
  ⟨hlen, List.length_replicate, hfin, fun _ hx => .inl (List.eq_of_mem_replicate hx)⟩

theorem installInto_ok {c : Config} {f : FilterSlot} {o : Occupancy} (hf : f.ok c) (ho : o.ok c) : (installInto f o).ok c := by
  cases o with
  | empty => exact hf
  | single a => exact ⟨ho, hf, inUnitInterval_zero⟩
  | dual a b p => exact ⟨ho.2.1, hf, inUnitInterval_zero⟩

theorem filterNext_ok {c : Config} {x : F64} {f : FilterSlot} (hc : 1 ≤ c.fftSize) (hx : x = Fp.zero ∨ x = Fp.one) (hf : f.ok c) :
    (filterNext c x f).ok c := by
  obtain ⟨hir, hdl, hfin, hpulses⟩ := hf
  refine ⟨hir, shiftDelay_length hdl hc, hfin, fun y hy => ?_⟩
  rcases List.mem_cons.mp hy with rfl | hy
  · exact hx
  · exact hpulses y (List.mem_of_mem_take hy)

theorem stepFilters_ok {c : Config} {x : F64} {o : Occupancy} (hc : 1 ≤ c.fftSize) (hx : x = Fp.zero ∨ x = Fp.one) (ho : o.ok c) :
    (stepFilters c x o).ok c := by
  cases o with
  | empty => exact ho
  | single a => exact filterNext_ok hc hx ho
  | dual a b p => exact ⟨filterNext_ok hc hx ho.1, filterNext_ok hc hx ho.2.1, ho.2.2⟩

theorem advanceCrossfade_ok {c : Config} {x : F64} {o : Occupancy} (hx : validXstep x = true) (ho : o.ok c) :
    (advanceCrossfade x o).ok c := by
  rcases advanceCrossfade_cases x o with ⟨a, b, p, rfl, -, h⟩ | ⟨a, b, p, rfl, hlt, h⟩ | ⟨-, h⟩
  · rw [h]; exact ho.2.1
  · rw [h]; exact ⟨ho.1, ho.2.1, inUnitInterval_add ho.2.2 hx hlt⟩
  · rw [h]; exact ho

theorem stepFilters_empty_iff (c : Config) (x : F64) (o : Occupancy) : stepFilters c x o = .empty ↔ o = .empty := by
  cases o <;> simp [stepFilters]

/-! ### Named updates -/

namespace State.Inv

variable {s : State}

theorem one_le_fftSize (h : s.Inv) : 1 ≤ s.cfg.fftSize := by
  have hc := h.cfgWf
  simp only [Config.wf, Bool.and_eq_true, decide_eq_true_eq] at hc
  omega

theorem withSchedule (h : s.Inv) (es : List Event) : { s with schedule := es }.Inv := { h with }

theorem fetched (h : s.Inv) (w : Word) : (fetched w s).Inv := { h with }

theorem raiseError (h : s.Inv) (e : ErrCode) : (raiseError e s).Inv := { h with }

theorem clearErrors (h : s.Inv) : (clearErrors s).Inv := { h with }

theorem respond (h : s.Inv) (r : Response) : (respond r s).Inv := { h with }

theorem audioFaultEvent (h : s.Inv) : (audioFaultEvent s).Inv := { h with }

theorem storeLoc {t : State} {v : Word} {l : Loc} (h : s.Inv) (hs : storeLoc s v l = some t) : t.Inv := by
  have hmem := storeLoc_memory_wf hs h.memoryWf
  cases l <;> simp only [Machine.storeLoc, Option.some.injEq, reduceCtorEq] at hs <;> subst hs <;> exact { h with memoryWf := hmem }

theorem startSession (h : s.Inv) (hidle : s.busy = false) : (startSession s).Inv :=
  { h with
    swShape := ⟨Nat.two_pow_pos 16, fun _ hw => by cases hw⟩
    fwShape := Nat.two_pow_pos 16
    windowsBounded := fun _ => ⟨Nat.zero_le _, Nat.zero_le _⟩
    freqValid := .inl rfl
    occOk := trivial
    stoppedEmpty := fun _ => rfl
    latchOk := fun j hj => by
      rw [startSession_latch] at hj
      rw [State.busy, hj] at hidle
      cases hidle }

theorem stopSession (h : s.Inv) : (stopSession s).Inv := by
  have hempty : (Machine.stopSession s).occ = .empty := by
    cases hr : s.running with
    | true => simp [Machine.stopSession, hr]
    | false => simp [Machine.stopSession, hr, h.stoppedEmpty hr]
  exact { h with
    windowsBounded := fun hr => by cases hr
    occOk := by rw [hempty]; trivial
    stoppedEmpty := fun _ => hempty
    latchOk := fun j hj => by cases hj }

/-- CONFIG may set any legal capacities, since a stopped block's windows are not bounded by them (log entry 19). -/
theorem setConfig {a b : Nat} (m : SmoothMode) {x : F64} (h : s.Inv) (hstopped : s.running = false)
    (ha : validCapacity a s.cfg.specCapMax = true) (hb : validCapacity b s.cfg.f0CapMax = true) (hx : validXstep x = true) :
    (setConfig m a b x s).Inv := by
  have hc := h.cfgWf
  simp only [Config.wf, validCapacity, Bool.and_eq_true, decide_eq_true_eq] at hc ha hb
  exact { h with
    specCapRange := show 1 ≤ a ∧ a < 2 ^ 16 by omega
    f0CapRange := show 1 ≤ b ∧ b < 2 ^ 16 by omega
    windowsBounded := fun hr => by rw [setConfig_running, hstopped] at hr; cases hr
    stepValid := hx }

theorem setOscFreq {f : F64} (h : s.Inv) (hf : validF0 f = true) : (setOscFreq f s).Inv := { h with freqValid := .inr hf }

theorem installFilter {ir : List F64} (h : s.Inv) (hrun : s.running = true) (hlen : ir.length = s.cfg.fftSize)
    (hfin : allFinite ir = true) : (installFilter ir s).Inv :=
  { h with
    occOk := installInto_ok (newFilter_ok hlen hfin) h.occOk
    stoppedEmpty := fun hr => by rw [installFilter_running, hrun] at hr; cases hr }

theorem latchJob {j : Job} (h : s.Inv) (hj : j.ok s.cfg) (hrun : j.isFrame = true → s.running = true) : (latchJob j s).Inv :=
  { h with
    latchOk := fun k hk => by
      rw [latchJob_latch, Option.some.injEq] at hk
      subst hk
      exact ⟨hj, hrun⟩ }

theorem finishJob (h : s.Inv) (j : Job) : (finishJob (jobResult s.cfg j) s).Inv :=
  { h with
    memoryWf := finishJob_memory_wf j h.memoryWf
    latchOk := fun k hk => by cases hk }

/-- An accepted push keeps the invariant, and what it commits are the operands of a well-formed FRAME job (R225, R226). -/
theorem accept {t : State} (h : s.Inv) (ha : accept s = .ok t) : t.Inv ∧ (Job.frame t.specOut t.smoF0).ok t.cfg := by
  have hmem := accept_memory_wf ha h.memoryWf
  obtain ⟨-, -, hf0, hspec, rfl⟩ := accept_ok ha
  obtain ⟨hspecIn, -⟩ := memory_wf_iff.mp h.memoryWf
  have hsw : (smoothPush s s.specIn s.f0In).sw.length ≤ s.specCap := pushWindow_length _ _ _ h.specCapRange.1
  have hfw : (smoothPush s s.specIn s.f0In).fw.length ≤ s.f0Cap := pushWindow_length _ _ _ h.f0CapRange.1
  have hwhole : ∀ w ∈ (smoothPush s s.specIn s.f0In).sw, w.length = s.cfg.bins := fun w hw => by
    rcases mem_pushWindow hw with hold | rfl
    · exact h.swShape.2 w hold
    · rw [List.length_map, hspecIn]
  refine ⟨{ h with
    memoryWf := hmem
    swShape := ⟨hsw.trans_lt h.specCapRange.2, hwhole⟩
    fwShape := hfw.trans_lt h.f0CapRange.2
    windowsBounded := fun _ => ⟨hsw, hfw⟩ }, smoothPush_spec_length s s.specIn s.f0In, hspec, hf0⟩

/-! ### The agents' steps -/

theorem xfadeTick (h : s.Inv) : (xfadeTick s).Inv := by
  cases hr : s.running with
  | false =>
    exact { h with
      occOk := by rw [xfadeTick_occ, hr]; exact h.occOk
      stoppedEmpty := fun _ => by rw [xfadeTick_occ, hr]; exact h.stoppedEmpty hr }
  | true =>
    exact { h with
      occOk := by rw [xfadeTick_occ, hr]; exact advanceCrossfade_ok h.stepValid h.occOk
      stoppedEmpty := fun hf => by rw [xfadeTick_running, hr] at hf; cases hf }

theorem sampleTick (h : s.Inv) : (sampleTick s).Inv := by
  have hocc : (Machine.sampleTick s).occ.ok s.cfg := by
    rw [sampleTick_occ]
    split
    · exact stepFilters_ok h.one_le_fftSize (pulseOf_zero_or_one s) h.occOk
    · exact h.occOk
  have hempty : s.running = false → (Machine.sampleTick s).occ = .empty := fun hr => by
    rw [sampleTick_occ, hr]
    exact h.stoppedEmpty hr
  rw [sampleTick_frame]
  exact { h with occOk := hocc, stoppedEmpty := hempty }

/-- A job completes in the session that latched it, so a FRAME job's filter comes into a running block (R235). -/
theorem completeJob {j : Job} (h : s.Inv) (hj : s.latch = some j) : (completeJob j s).Inv := by
  have hdone := h.finishJob j
  obtain ⟨hok, hframe⟩ := h.latchOk j hj
  rcases completeJob_cases j s with ⟨-, ht⟩ | ⟨spec, f0, rfl, hfin, ht⟩ | ⟨-, -, ht⟩
  · rw [ht]; exact hdone
  · rw [ht]
    exact (hdone.installFilter (hframe rfl) (jobResult_length _ _) hfin).setOscFreq hok.2.2
  · rw [ht]; exact hdone.raiseError _

end State.Inv

/-- RESET leaves the invariant, whatever the parameters (R320). -/
theorem resetOf_inv {c : Config} (hc : c.wf = true) (draw : Nat) : (State.resetOf c draw).Inv where
  cfgWf := hc
  memoryWf := resetOf_memory_wf c draw
  specCapRange := (by decide : 1 ≤ 2 ∧ 2 < 2 ^ 16)
  f0CapRange := (by decide : 1 ≤ 50 ∧ 50 < 2 ^ 16)
  swShape := ⟨Nat.two_pow_pos 16, fun _ hw => by cases hw⟩
  fwShape := Nat.two_pow_pos 16
  windowsBounded := fun hr => by cases hr
  stepValid := (by decide : validXstep 0x3F847AE147AE147B#64 = true)
  freqValid := .inl rfl
  occOk := trivial
  stoppedEmpty := fun _ => rfl
  latchOk := fun j hj => by cases hj

/-- Every command keeps the invariant, by the kind of its effect. -/
theorem exec_inv {i : Instr} {s t : State} (h : s.Inv) (hx : exec i s = .next t) : t.Inv := by
  obtain ⟨hspecIn, -, hirIn, -⟩ := memory_wf_iff.mp h.memoryWf
  rcases exec_next hx with ⟨-, rfl⟩ | ⟨e, rfl, -⟩ | ⟨-, hidle, -, rfl⟩ | ⟨-, rfl⟩ | ⟨m, a, b, -, -, hstopped, ha, hb, hstep, rfl⟩
    | ⟨u, -, -, hrun, hu, rfl⟩ | ⟨-, -, hf0, hspec, hshift, rfl⟩ | ⟨-, -, hrun, hfin, rfl⟩ | ⟨-, -, -, hf0, rfl⟩ | ⟨-, rfl⟩
  · exact h
  · exact h.raiseError e
  · exact h.startSession hidle
  · exact h.stopSession
  · exact h.setConfig m hstopped ha hb hstep
  · obtain ⟨hinv, hjob⟩ := h.accept hu
    split
    · exact hinv
    · refine hinv.latchJob hjob fun _ => ?_
      obtain ⟨-, -, -, -, rfl⟩ := accept_ok hu
      exact hrun
  · exact h.latchJob ⟨hspecIn, hspec, hf0, hshift⟩ fun hframe => by cases hframe
  · exact h.installFilter hrun hirIn hfin
  · exact h.setOscFreq hf0
  · exact h.clearErrors

/-- Settles O42: each kind of step is one update, or a command, that keeps the invariant. -/
theorem stepKeepsInvariant : Obligations.StepKeepsInvariant := by
  intro s t h hstep
  have hs := h.withSchedule
  rcases step_cases hstep with ⟨-, rfl⟩ | ⟨rest, a, n, -, r, rfl⟩ | ⟨rest, a, n, v, -, hwrite⟩ | ⟨rest, -, rfl⟩ | ⟨rest, -, rfl⟩
    | ⟨rest, j, -, hj, rfl⟩ | ⟨rest, -, rfl⟩ | ⟨rest, -, rfl⟩
  · exact h
  · exact (hs rest).respond r
  · rcases hwrite with rfl | ⟨l, u, -, -, hu, rfl⟩ | ⟨-, -, rfl⟩ | ⟨i, -, -, -, hx⟩
    · exact (hs rest).respond _
    · exact ((hs rest).storeLoc hu).respond _
    · exact ((hs rest).fetched v).raiseError _
    · exact exec_inv ((hs rest).fetched v) hx
  · exact (hs rest).sampleTick
  · exact (hs rest).xfadeTick
  · exact (hs rest).completeJob hj
  · exact (hs rest).audioFaultEvent
  · exact (resetOf_inv h.cfgWf _).withSchedule rest

end Sys2Proof.Machine
end

section
/-! PROOFS. One step: it goes on exactly when its agent is enabled (O8), it keeps the parameters (O9), and each result and each piece of
the session's control has its writers (O30, O31). -/

namespace Sys2Proof.Machine

/-! ### Enabled steps -/

/-- An enabled agent's step goes on (R22). -/
theorem perform_completes {e : Event} {s : State} (h : e.enabled s = true) : ∃ t, perform e s = .next t := by
  cases e with
  | hostWrite a n v => exact hostWrite_completes a n v s
  | jobDone =>
    obtain ⟨j, hj⟩ := Option.isSome_iff_exists.mp h
    exact ⟨completeJob j s, by rw [perform, jobDone, hj]⟩
  | hostRead a n => exact ⟨_, rfl⟩
  | sampleTick => exact ⟨_, rfl⟩
  | xfadeTick => exact ⟨_, rfl⟩
  | audioFault => exact ⟨_, rfl⟩
  | reset => exact ⟨_, rfl⟩

theorem step_of_cons {s : State} {e : Event} {rest : List Event} (hs : s.schedule = e :: rest) :
    step s = perform e { s with schedule := rest } := by
  rw [step, runSchedule, hs]

/-- Settles O8: an enabled head of the schedule is performed, and without a latched job JOB_DONE is the model's fault (log entry 3). -/
theorem stepCompletesExactlyWhenEnabled : Obligations.StepCompletesExactlyWhenEnabled := by
  intro s
  refine ⟨fun henabled => ?_, fun rest hs => ⟨fun hidle => ?_, fun hbusy => ?_⟩⟩
  · rw [State.nextEnabled] at henabled
    cases hs : s.schedule with
    | nil => exact ⟨s, by rw [step, runSchedule, hs]⟩
    | cons e rest =>
      rw [hs] at henabled
      rw [step_of_cons hs]
      exact perform_completes (by cases e <;> exact henabled)
  · have hlatch : s.latch = none := by simpa [State.busy] using hidle
    rw [step_of_cons hs, perform, jobDone, hlatch]
  · rw [step_of_cons hs]
    exact perform_completes hbusy

/-! ### The parameters -/

/-- No step changes the parameters (log entry 2). -/
theorem step_cfg {s t : State} (h : step s = .next t) : t.cfg = s.cfg := by
  rcases step_cases h with ⟨-, rfl⟩ | ⟨rest, a, n, -, r, rfl⟩ | ⟨rest, a, n, v, -, hwrite⟩ | ⟨rest, -, rfl⟩ | ⟨rest, -, rfl⟩
    | ⟨rest, j, -, -, rfl⟩ | ⟨rest, -, rfl⟩ | ⟨rest, -, rfl⟩
  · rfl
  · rfl
  · rcases hwrite with rfl | ⟨l, u, -, -, hu, rfl⟩ | ⟨-, -, rfl⟩ | ⟨i, -, -, -, hx⟩
    · rfl
    · exact (storeLoc_cfg hu :)
    · rfl
    · obtain ⟨-, -, -, -, -, -, -, -, hcfg, -⟩ := exec_keeps hx
      exact hcfg
  · rw [sampleTick_frame]
  · rfl
  · exact completeJob_cfg _ _
  · rfl
  · rfl

/-- Settles O9: ID0, ID1 and EPS show the parameters and nothing else. -/
theorem instanceIsConstant : Obligations.InstanceIsConstant := by
  intro s t h
  have hcfg := step_cfg h
  refine ⟨hcfg, ?_, ?_, ?_⟩ <;> simp [readLoc, State.id0Word, State.id1Word, hcfg]

/-! ### Who writes what -/

/-- Nothing has changed between two states of what O30 and O31 name the writers of, nor the parameters. -/
structure Undisturbed (s t : State) : Prop where
  cfg : t.cfg = s.cfg
  oscFreq : t.oscFreq = s.oscFreq
  smoF0 : t.smoF0 = s.smoF0
  specOut : t.specOut = s.specOut
  sw : t.sw = s.sw
  fw : t.fw = s.fw
  irOut : t.irOut = s.irOut
  exportIr : t.exportIr = s.exportIr
  mode : t.mode = s.mode
  specCap : t.specCap = s.specCap
  f0Cap : t.f0Cap = s.f0Cap
  actXstep : t.actXstep = s.actXstep
  running : t.running = s.running
  edge : t.edge = s.edge

theorem undisturbed_withSchedule (s : State) (es : List Event) : Undisturbed s { s with schedule := es } := by constructor <;> rfl

theorem undisturbed_respond (r : Response) (s : State) : Undisturbed s (respond r s) := by constructor <;> rfl

theorem undisturbed_fetched (w : Word) (s : State) : Undisturbed s (fetched w s) := by constructor <;> rfl

theorem undisturbed_raiseError (e : ErrCode) (s : State) : Undisturbed s (raiseError e s) := by constructor <;> rfl

theorem undisturbed_audioFaultEvent (s : State) : Undisturbed s (audioFaultEvent s) := by constructor <;> rfl

/-- The host stores operands and CMD alone (R62). -/
theorem undisturbed_storeLoc {s t : State} {v : Word} {l : Loc} (h : storeLoc s v l = some t) : Undisturbed s t := by
  cases l <;> simp only [storeLoc, Option.some.injEq, reduceCtorEq] at h <;> subst h <;> constructor <;> rfl

theorem Undisturbed.trans {s t u : State} (hst : Undisturbed s t) (htu : Undisturbed t u) : Undisturbed s u where
  cfg := htu.cfg.trans hst.cfg
  oscFreq := htu.oscFreq.trans hst.oscFreq
  smoF0 := htu.smoF0.trans hst.smoF0
  specOut := htu.specOut.trans hst.specOut
  sw := htu.sw.trans hst.sw
  fw := htu.fw.trans hst.fw
  irOut := htu.irOut.trans hst.irOut
  exportIr := htu.exportIr.trans hst.exportIr
  mode := htu.mode.trans hst.mode
  specCap := htu.specCap.trans hst.specCap
  f0Cap := htu.f0Cap.trans hst.f0Cap
  actXstep := htu.actXstep.trans hst.actXstep
  running := htu.running.trans hst.running
  edge := htu.edge.trans hst.edge

theorem Undisturbed.actCfgWord {s t : State} (h : Undisturbed s t) : t.actCfgWord = s.actCfgWord := by
  rw [State.actCfgWord, h.mode, h.specCap, h.f0Cap, State.actCfgWord]

/-- EXPORT_IR shows the newest filter (R37). -/
theorem exportIr_of_single {s : State} {a : FilterSlot} (h : s.occ = .single a) : s.exportIr = a.ir := by
  rw [State.exportIr, h]

theorem exportIr_of_dual {s : State} {a b : FilterSlot} {p : F64} (h : s.occ = .dual a b p) : s.exportIr = b.ir := by
  rw [State.exportIr, h]

theorem exportIr_congr {s t : State} (hcfg : t.cfg = s.cfg) (hocc : t.occ = s.occ) : t.exportIr = s.exportIr := by
  rw [State.exportIr, hcfg, hocc, State.exportIr]

theorem Undisturbed.configuration {s t : State} (h : Undisturbed s t) :
    ¬ (t.actCfgWord ≠ s.actCfgWord ∨ t.actXstep ≠ s.actXstep ∨ t.mode ≠ s.mode) := by
  simp [h.actCfgWord, h.actXstep, h.mode]

/-- A tick moves samples through the filters and keeps their impulse responses (R194). -/
theorem exportIr_sampleTick (s : State) : (sampleTick s).exportIr = s.exportIr := by
  have hcfg : (sampleTick s).cfg = s.cfg := by rw [sampleTick_frame]
  cases hr : s.running with
  | false => exact exportIr_congr hcfg (by rw [sampleTick_occ, hr]; rfl)
  | true =>
    have hocc : (sampleTick s).occ = stepFilters s.cfg (pulseOf s) s.occ := by rw [sampleTick_occ, hr]; rfl
    rcases stepFilters_cases s.cfg (pulseOf s) s.occ with ⟨ho, h⟩ | ⟨a, ho, h⟩ | ⟨a, b, p, ho, h⟩
    · exact exportIr_congr hcfg (by rw [hocc, h, ho])
    · rw [exportIr_of_single (hocc.trans h), exportIr_of_single ho]
    · rw [exportIr_of_dual (hocc.trans h), exportIr_of_dual ho]

/-- A crossfade tick keeps the newest filter newest (R197). -/
theorem exportIr_xfadeTick (s : State) : (xfadeTick s).exportIr = s.exportIr := by
  cases hr : s.running with
  | false => exact exportIr_congr rfl (by rw [xfadeTick_occ, hr]; rfl)
  | true =>
    have hocc : (xfadeTick s).occ = advanceCrossfade s.actXstep s.occ := by rw [xfadeTick_occ, hr]; rfl
    rcases advanceCrossfade_cases s.actXstep s.occ with ⟨a, b, p, ho, -, h⟩ | ⟨a, b, p, ho, -, h⟩ | ⟨-, h⟩
    · rw [exportIr_of_single (hocc.trans h), exportIr_of_dual ho]
    · rw [exportIr_of_dual (hocc.trans h), exportIr_of_dual ho]
    · exact exportIr_congr rfl (hocc.trans h)

theorem undisturbed_xfadeTick (s : State) : Undisturbed s (xfadeTick s) := by
  constructor
  case exportIr => exact exportIr_xfadeTick s
  all_goals rfl

/-- Of what O30 and O31 speak of, a sample tick changes the edge state alone. -/
theorem undisturbed_sampleTick (s : State) : Undisturbed s { sampleTick s with edge := s.edge } := by
  have hir : State.exportIr { sampleTick s with edge := s.edge } = s.exportIr := exportIr_sampleTick s
  rw [sampleTick_frame] at hir ⊢
  constructor
  case exportIr => exact hir
  all_goals rfl

/-- Of what O30 and O31 speak of, RESET apart, a step changes what its command changes, or the edge state at a sample tick, or what the
completion of the latched job changes. -/
theorem step_sources {s t : State} (h : step s = .next t) (hreset : s.schedule.head? ≠ some .reset) :
    Undisturbed s t
      ∨ (∃ i u, s.nextCommand = some i ∧ Undisturbed s u ∧ exec i u = .next t)
      ∨ (s.schedule.head? = some .sampleTick ∧ Undisturbed s { t with edge := s.edge })
      ∨ (∃ j u, s.schedule.head? = some .jobDone ∧ s.latch = some j ∧ Undisturbed s u ∧ t = completeJob j u) := by
  have hs := undisturbed_withSchedule s
  rcases step_cases h with ⟨-, rfl⟩ | ⟨rest, a, n, -, r, rfl⟩ | ⟨rest, a, n, v, -, hwrite⟩ | ⟨rest, hhead, rfl⟩ | ⟨rest, -, rfl⟩
    | ⟨rest, j, hhead, hj, rfl⟩ | ⟨rest, -, rfl⟩ | ⟨rest, hhead, -⟩
  · exact .inl (hs _)
  · exact .inl ((hs rest).trans (undisturbed_respond r _))
  · rcases hwrite with rfl | ⟨l, u, -, -, hu, rfl⟩ | ⟨-, -, rfl⟩ | ⟨i, -, -, hi, hx⟩
    · exact .inl ((hs rest).trans (undisturbed_respond _ _))
    · exact .inl (((hs rest).trans (undisturbed_storeLoc hu)).trans (undisturbed_respond _ _))
    · exact .inl (((hs rest).trans (undisturbed_fetched v _)).trans (undisturbed_raiseError _ _))
    · exact .inr (.inl ⟨i, _, hi, (hs rest).trans (undisturbed_fetched v _), hx⟩)
  · exact .inr (.inr (.inl ⟨by rw [hhead]; rfl, (hs rest).trans (undisturbed_sampleTick _)⟩))
  · exact .inl ((hs rest).trans (undisturbed_xfadeTick _))
  · exact .inr (.inr (.inr ⟨j, _, by rw [hhead]; rfl, hj, hs rest, rfl⟩))
  · exact .inl ((hs rest).trans (undisturbed_audioFaultEvent _))
  · rw [hhead] at hreset
    exact absurd rfl hreset

/-- Which commands write the results (R221, R226, R228, R229, R231). -/
theorem exec_result_writers {i : Instr} {s t : State} (h : exec i s = .next t) :
    (t.oscFreq = s.oscFreq ∨ i = .start ∨ i = .setfreq)
      ∧ ((t.smoF0 = s.smoF0 ∧ t.specOut = s.specOut) ∨ i = .push ∨ i = .frame true)
      ∧ ((t.sw = s.sw ∧ t.fw = s.fw) ∨ i = .push ∨ i = .frame true ∨ i = .start)
      ∧ (t.exportIr = s.exportIr ∨ i = .install ∨ i = .start ∨ i = .stop) := by
  rcases exec_next h with ⟨-, rfl⟩ | ⟨e, rfl, -⟩ | ⟨rfl, -, -, rfl⟩ | ⟨rfl, rfl⟩ | ⟨m, a, b, -, -, -, -, -, -, rfl⟩
    | ⟨u, hi, -, -, hu, rfl⟩ | ⟨-, -, -, -, -, rfl⟩ | ⟨rfl, -, -, -, rfl⟩ | ⟨rfl, -, -, -, rfl⟩ | ⟨-, rfl⟩
  case inr.inr.inr.inr.inr.inl =>
    obtain ⟨-, -, -, -, rfl⟩ := accept_ok hu
    rcases hi with rfl | rfl <;> simp [State.exportIr]
  all_goals simp [State.exportIr]

/-- Which commands write the configuration, the session state and the edge state (R221 to R223). -/
theorem exec_control_writers {i : Instr} {s t : State} (h : exec i s = .next t) :
    ((t.mode = s.mode ∧ t.specCap = s.specCap ∧ t.f0Cap = s.f0Cap ∧ t.actXstep = s.actXstep)
        ∨ s.running = false ∧ ∃ m a b, i = .config m a b)
      ∧ (t.running = s.running ∨ i = .start ∨ i = .stop)
      ∧ (t.edge = s.edge ∨ i = .start ∨ i = .stop) := by
  rcases exec_next h with ⟨-, rfl⟩ | ⟨e, rfl, -⟩ | ⟨rfl, -, -, rfl⟩ | ⟨rfl, rfl⟩ | ⟨m, a, b, rfl, -, hstopped, -, -, -, rfl⟩
    | ⟨u, -, -, -, hu, rfl⟩ | ⟨-, -, -, -, -, rfl⟩ | ⟨-, -, -, -, rfl⟩ | ⟨-, -, -, -, rfl⟩ | ⟨-, rfl⟩
  case inr.inr.inr.inr.inl => simp [hstopped]
  case inr.inr.inr.inr.inr.inl =>
    obtain ⟨-, -, -, -, rfl⟩ := accept_ok hu
    split <;> simp
  all_goals simp

/-- What a job's completion writes: IR_OUT, and for a FRAME job OSC_FREQ and EXPORT_IR (R235). -/
theorem completeJob_writers (j : Job) (s : State) :
    Undisturbed s { completeJob j s with irOut := s.irOut }
      ∨ j.isFrame = true ∧ Undisturbed s { completeJob j s with irOut := s.irOut, oscFreq := s.oscFreq, occ := s.occ } := by
  rcases completeJob_cases j s with ⟨-, h⟩ | ⟨spec, f0, rfl, -, h⟩ | ⟨-, -, h⟩ <;> rw [h]
  · left; constructor <;> rfl
  · right; exact ⟨rfl, by constructor <;> rfl⟩
  · left; constructor <;> rfl

/-- Settles O30: of the sources of a change, each can change what its command or its job writes. -/
theorem resultWriters : Obligations.ResultWriters := by
  intro s t h hreset
  rcases step_sources h hreset with hsame | ⟨i, u, hi, hsame, hx⟩ | ⟨-, hsame⟩ | ⟨j, u, hhead, hj, hsame, rfl⟩
  case inl | inr.inr.inl =>
    exact ⟨fun hne => absurd hsame.oscFreq hne, fun hne => hne.elim (absurd hsame.smoF0) (absurd hsame.specOut),
      fun hne => hne.elim (absurd hsame.sw) (absurd hsame.fw), fun hne => absurd hsame.irOut hne,
      fun hne => absurd hsame.exportIr hne⟩
  case inr.inl =>
    obtain ⟨hosc, hsmo, hwindows, hexport⟩ := exec_result_writers hx
    obtain ⟨-, -, -, -, -, -, hirOut, -⟩ := exec_keeps hx
    rw [hsame.oscFreq] at hosc
    rw [hsame.smoF0, hsame.specOut] at hsmo
    rw [hsame.sw, hsame.fw] at hwindows
    rw [hsame.exportIr] at hexport
    simp only [hi, Option.some.injEq]
    exact ⟨fun hne => (hosc.resolve_left hne).imp_right .inl, fun hne => hsmo.resolve_left (not_and_or.mpr hne),
      fun hne => hwindows.resolve_left (not_and_or.mpr hne), fun hne => absurd (hirOut.trans hsame.irOut) hne,
      fun hne => (hexport.resolve_left hne).imp_right (·.imp_right .inl)⟩
  case inr.inr.inr =>
    rcases completeJob_writers j u with hjob | ⟨hframe, hjob⟩
    · have hall := hsame.trans hjob
      exact ⟨fun hne => absurd hall.oscFreq hne, fun hne => hne.elim (absurd hall.smoF0) (absurd hall.specOut),
        fun hne => hne.elim (absurd hall.sw) (absurd hall.fw), fun _ => hhead, fun hne => absurd hall.exportIr hne⟩
    · have hall := hsame.trans hjob
      have hflight : s.frameInFlight = true := by rw [State.frameInFlight, hj]; exact hframe
      exact ⟨fun _ => .inr (.inr ⟨hhead, hflight⟩), fun hne => hne.elim (absurd hall.smoF0) (absurd hall.specOut),
        fun hne => hne.elim (absurd hall.sw) (absurd hall.fw), fun _ => hhead,
        fun _ => .inr (.inr (.inr ⟨hhead, hflight⟩))⟩

/-- Settles O31: CONFIG, START and STOP are the commands that write the control, and a sample tick moves the edge state. -/
theorem controlWriters : Obligations.ControlWriters := by
  intro s t h hreset
  rcases step_sources h hreset with hsame | ⟨i, u, hi, hsame, hx⟩ | ⟨hhead, hsame⟩ | ⟨j, u, -, -, hsame, rfl⟩
  case inl =>
    exact ⟨fun hne => absurd hne hsame.configuration, fun hne => absurd hsame.running hne, fun hne => absurd hsame.edge hne⟩
  case inr.inl =>
    obtain ⟨hconfig, hrunning, hedge⟩ := exec_control_writers hx
    rw [hsame.running] at hconfig hrunning
    rw [hsame.edge] at hedge
    simp only [hi, Option.some.injEq]
    refine ⟨fun hne => hconfig.resolve_left ?_, hrunning.resolve_left, fun hne => .inr (hedge.resolve_left hne)⟩
    rintro ⟨hmode, hspecCap, hf0Cap, hxstep⟩
    rcases hne with hword | hne | hne
    · exact hword (by rw [← hsame.actCfgWord, State.actCfgWord, hmode, hspecCap, hf0Cap, State.actCfgWord])
    · exact hne (hxstep.trans hsame.actXstep)
    · exact hne (hmode.trans hsame.mode)
  case inr.inr.inl =>
    have hconfig := hsame.configuration
    exact ⟨fun hne => absurd hne hconfig, fun hne => absurd hsame.running hne, fun _ => .inl hhead⟩
  case inr.inr.inr =>
    rcases completeJob_writers j u with hjob | ⟨-, hjob⟩
    all_goals
      have hall := hsame.trans hjob
      have hconfig := hall.configuration
      exact ⟨fun hne => absurd hne hconfig, fun hne => absurd hall.running hne, fun hne => absurd hall.edge hne⟩

end Sys2Proof.Machine
end

section
/-! PROOFS. The status registers as numbers: each field in its place (O12). -/

namespace Sys2Proof.Machine

/-- A word of two parts as a number. -/
theorem toNat_append_eq_add {m n : Nat} (x : BitVec m) (y : BitVec n) : (x ++ y).toNat = x.toNat * 2 ^ n + y.toNat := by
  rw [BitVec.toNat_append, ← Nat.shiftLeft_add_eq_or_of_lt y.isLt, Nat.shiftLeft_eq]

/-- STATUS as a number: every field in its place, and nothing in the reserved bits (R28). -/
theorem statusWord_toNat (s : State) :
    s.statusWord.toNat = s.jobField.toNat * 2 ^ 18 + s.occField.toNat * 2 ^ 16 + s.errCode.toNat * 2 ^ 8 + s.done.toNat * 2 ^ 4
      + s.audioFault.toNat * 2 ^ 3 + s.errFlag.toNat * 2 ^ 2 + s.busy.toNat * 2 ^ 1 + s.running.toNat := by
  simp only [State.statusWord, toNat_append_eq_add, BitVec.toNat_ofBool, BitVec.toNat_ofNat]
  omega

/-- A bit of a word is a digit of its number. -/
theorem getLsbD_eq_decide {n : Nat} (w : BitVec n) (i : Nat) : w.getLsbD i = decide (w.toNat / 2 ^ i % 2 = 1) := by
  rw [BitVec.getLsbD, Nat.testBit_eq_decide_div_mod_eq]

/-- The fields of STATUS, read back from the word (R28). -/
theorem statusWord_fields (s : State) :
    s.statusWord.getLsbD 0 = s.running ∧ s.statusWord.getLsbD 1 = s.busy ∧ s.statusWord.getLsbD 2 = s.errFlag
      ∧ s.statusWord.getLsbD 3 = s.audioFault ∧ s.statusWord.getLsbD 4 = s.done ∧ s.statusWord.toNat / 2 ^ 5 % 2 ^ 3 = 0
      ∧ s.statusWord.toNat / 2 ^ 8 % 2 ^ 8 = s.errCode.toNat ∧ s.statusWord.toNat / 2 ^ 16 % 2 ^ 2 = s.occField.toNat
      ∧ s.statusWord.toNat / 2 ^ 18 % 2 ^ 2 = s.jobField.toNat ∧ s.statusWord.toNat / 2 ^ 20 = 0 := by
  have hw := statusWord_toNat s
  have hjob := s.jobField.isLt
  have hocc := s.occField.isLt
  have herr := s.errCode.isLt
  have hdone := s.done.toNat_lt
  have haudio := s.audioFault.toNat_lt
  have hflag := s.errFlag.toNat_lt
  have hbusy := s.busy.toNat_lt
  have hrun := s.running.toNat_lt
  have bit {i : Nat} {b : Bool} (h : s.statusWord.toNat / 2 ^ i % 2 = b.toNat) : s.statusWord.getLsbD i = b := by
    rw [getLsbD_eq_decide, h]
    cases b <;> rfl
  refine ⟨bit ?_, bit ?_, bit ?_, bit ?_, bit ?_, ?_, ?_, ?_, ?_, ?_⟩ <;> omega

/-- The numbers of R291. -/
theorem code_toNat : ∀ row ∈ ([(.illegalCmd, 1), (.notRunning, 2), (.notStopped, 3), (.busy, 4), (.invalidF0, 5),
    (.invalidSpectrum, 6), (.invalidShift, 7), (.invalidIr, 8), (.invalidConfig, 9)] : List (ErrCode × Nat)),
    row.1.code.toNat = row.2 := by
  decide

/-- Settles O12: the fields of the word are the views of the state, and each view is read off its definition. -/
theorem statusShowsItsFields : Obligations.StatusShowsItsFields := by
  rintro s w rfl
  obtain ⟨hrun, hbusy, hflag, haudio, hdone, hreserved, hcode, hocc, hjob, hhigh⟩ := statusWord_fields s
  have hwin := winLenWord_toNat s
  refine ⟨hrun, ?busy, ?err, haudio, hdone, hreserved, ?noCode, ?codes, ?empty, ?single, ?dual, ?noJob, ?frame, ?synth, hhigh,
    ?actCfg, ?spectra, ?pitches, ?winHigh, ?low, ?high⟩
  case busy => rw [readLoc, hbusy, State.busy, Option.isSome_iff_ne_none]
  case err => rw [readLoc, hflag, State.errFlag, Option.isSome_iff_ne_none]
  case noCode => intro h; rw [readLoc, hcode, State.errCode, h]; rfl
  case codes => intro row hrow h; rw [readLoc, hcode, State.errCode, h]; exact code_toNat row hrow
  case empty => intro h; rw [readLoc, hocc, State.occField, h]; rfl
  case single => intro a h; rw [readLoc, hocc, State.occField, h]; rfl
  case dual => intro o n p h; rw [readLoc, hocc, State.occField, h]; rfl
  case noJob => intro h; rw [readLoc, hjob, State.jobField, h]; rfl
  case frame => intro spec f0 h; rw [readLoc, hjob, State.jobField, h]; rfl
  case synth => intro spec f0 x h; rw [readLoc, hjob, State.jobField, h]; rfl
  case actCfg =>
    intro hspec hf0
    rw [readLoc, actCfgWord_toNat hspec hf0]
    cases s.mode <;> simp [SmoothMode.bit]
  case spectra => intro h; rw [readLoc]; omega
  case pitches => intro h; rw [readLoc]; omega
  case winHigh => rw [readLoc]; omega
  case low => intro h; rw [readLoc, State.pgStateWord, h]
  case high => intro h; rw [readLoc, State.pgStateWord, h]

end Sys2Proof.Machine
end

section
/-! PROOFS. The oscillator's phase (spec/45_sample_domain.md R270) stays in [0, 1) (O44): the increment and the sum stay finite, and
`floor` and the subtraction of it lose no bit, so that the fraction cannot be rounded up to 1. -/

namespace Sys2Proof.Fp

/-! ### Numbers of units that are rounded to themselves -/

/-- At most 53 bits, in some place. -/
def Fits (n : ℕ) : Prop := ∃ m s, m < 2 ^ 53 ∧ n = m * 2 ^ s

theorem fits_units (x : F64) : Fits (units x) := by
  rw [units, unitsOfMag]
  split
  · exact ⟨mag x, 0, by omega, by rw [pow_zero, Nat.mul_one]⟩
  · exact ⟨_, _, by omega, rfl⟩

/-- Cutting off the places below `2^e` leaves at most 53 bits. -/
theorem Fits.floor {n : ℕ} (h : Fits n) (e : ℕ) : Fits (n / 2 ^ e * 2 ^ e) := by
  obtain ⟨m, s, hm, rfl⟩ := h
  rcases le_or_gt e s with hle | hgt
  · exact ⟨m, s, hm, Nat.div_mul_cancel (Dvd.dvd.mul_left (pow_dvd_pow 2 hle) m)⟩
  · refine ⟨m / 2 ^ (e - s), e, (Nat.div_le_self _ _).trans_lt hm, ?_⟩
    rw [show 2 ^ e = 2 ^ (e - s) * 2 ^ s by rw [← pow_add, Nat.sub_add_cancel hgt.le], Nat.mul_div_mul_right _ _ (Nat.two_pow_pos s)]

/-- The places below `2^e` have at most 53 bits. -/
theorem Fits.mod {n : ℕ} (h : Fits n) (e : ℕ) : Fits (n % 2 ^ e) := by
  obtain ⟨m, s, hm, rfl⟩ := h
  rcases le_or_gt e s with hle | hgt
  · exact ⟨0, 0, Nat.two_pow_pos 53, by rw [Nat.zero_mul]; exact Nat.mod_eq_zero_of_dvd (Dvd.dvd.mul_left (pow_dvd_pow 2 hle) m)⟩
  · refine ⟨m % 2 ^ (e - s), s, (Nat.mod_le _ _).trans_lt hm, ?_⟩
    rw [show 2 ^ e = 2 ^ (e - s) * 2 ^ s by rw [← pow_add, Nat.sub_add_cancel hgt.le], Nat.mul_mod_mul_right]

/-- The places that rounding gives up are empty. -/
theorem Fits.spareBits_dvd {n : ℕ} (h : Fits n) : 2 ^ spareBits n ∣ n := by
  obtain ⟨m, s, hm, hn⟩ := h
  rw [spareBits]
  split
  · exact one_dvd n
  · next hbig =>
    have hlog : n.log2 < 53 + s := by
      rw [Nat.log2_lt (by omega), hn, pow_add]
      exact Nat.mul_lt_mul_of_pos_right hm (Nat.two_pow_pos s)
    have hdvd : 2 ^ (n.log2 - 52) ∣ m * 2 ^ s := Dvd.dvd.mul_left (pow_dvd_pow 2 (by omega)) m
    rwa [← hn] at hdvd

theorem divNearestEven_of_dvd {n d : ℕ} (hd : 0 < d) (h : d ∣ n) : divNearestEven n d = n / d := by
  have hrem : n % d = 0 := Nat.mod_eq_zero_of_dvd h
  simp only [divNearestEven, hrem]
  exact if_neg (by omega)

/-- Rounding keeps 53 bits. -/
theorem unitsOfMag_roundMag_of_fits {n : ℕ} (h : Fits n) : unitsOfMag (roundMag n 1) = n := by
  have hdvd := h.spareBits_dvd
  rw [unitsOfMag_roundMag, significand, Nat.div_one, Nat.one_mul, divNearestEven_of_dvd (Nat.two_pow_pos _) hdvd,
    Nat.div_mul_cancel hdvd]

theorem roundMag_lt_of_fits {n M : ℕ} (h : Fits n) (hlt : n < unitsOfMag M) : roundMag n 1 < M := by
  rwa [← unitsOfMag_strictMono.lt_iff_lt, unitsOfMag_roundMag_of_fits h]

theorem finite_iff_units_lt {x : F64} : finite x = true ↔ units x < unitsOfMag infMag := by
  rw [finite, decide_eq_true_eq, units, unitsOfMag_strictMono.lt_iff_lt]

@[simp] theorem finite_round (neg : Bool) (n d : ℕ) : finite (round neg n d) = true ↔ roundMag n d < infMag := by
  simp [finite, mag_round]

theorem units_round {neg : Bool} {n d : ℕ} (h : roundMag n d < infMag) : units (round neg n d) = unitsOfMag (roundMag n d) := by
  rw [units, mag_round, min_eq_left h.le]

theorem finite_ofScaled (zeroNeg : Bool) (k : ℤ) : finite (ofScaled zeroNeg k) = true ↔ roundMag k.natAbs 1 < infMag := by
  rw [ofScaled_eq_round, finite_round]

/-- A number of units that fits and is no greater than a finite value's is exact. -/
theorem ofScaled_exact {zeroNeg : Bool} {n : ℕ} (h : Fits n) (hlt : n < unitsOfMag infMag) :
    finite (ofScaled zeroNeg n) = true ∧ scaled (ofScaled zeroNeg n) = n := by
  have hround := roundMag_lt_of_fits h hlt
  refine ⟨(finite_ofScaled _ _).mpr hround, ?_⟩
  rw [ofScaled_eq_round, scaled_eq, sign_round, Int.natAbs_natCast, units_round hround, unitsOfMag_roundMag_of_fits h]
  rcases Nat.eq_zero_or_pos n with rfl | hpos
  · exact mul_zero _
  · rw [if_neg (by omega), decide_eq_false (by omega), signUnit_false, one_mul]

/-! ### The fraction of a value -/

theorem zero_lt_unitsPerOne : 0 < unitsPerOne := Nat.cast_pos.mp unitsPerOne_pos

theorem scaled_eq_units {x : F64} (h : 0 ≤ scaled x) : scaled x = units x := by
  rw [scaled] at h ⊢
  split at h <;> simp_all

/-- `floor` of a value that is not below 0 is exact. -/
theorem floor_exact {t : F64} (ht : finite t = true) (h0 : 0 ≤ scaled t) :
    finite (floor t) = true ∧ scaled (floor t) = (units t / unitsPerOne * unitsPerOne : ℕ) := by
  rw [floor, if_pos ht, scaled_eq_units h0, ← Int.natCast_ediv, ← Int.natCast_mul]
  exact ofScaled_exact ((fits_units t).floor 1074) ((Nat.div_mul_le_self _ _).trans_lt (finite_iff_units_lt.mp ht))

/-- The subtraction of `floor` from a value that is not below 0 is exact. -/
theorem sub_floor_exact {t : F64} (ht : finite t = true) (h0 : 0 ≤ scaled t) :
    finite (sub t (floor t)) = true ∧ scaled (sub t (floor t)) = (units t % unitsPerOne : ℕ) := by
  obtain ⟨hfin, hfloor⟩ := floor_exact ht h0
  have hdiff : scaled t + scaled (neg (floor t)) = (units t % unitsPerOne : ℕ) := by
    have := Nat.div_add_mod' (units t) unitsPerOne
    rw [scaled_neg, hfloor, scaled_eq_units h0]
    omega
  rw [sub, add_of_finite ht ((finite_neg _).trans hfin), hdiff]
  exact ofScaled_exact ((fits_units t).mod 1074) ((Nat.mod_le _ _).trans_lt (finite_iff_units_lt.mp ht))

/-! ### The increment and the sum -/

/-- The F64 of a number below `2^53` is exact (R103). -/
theorem ofNat_exact {n : ℕ} (hn : n < 2 ^ 53) :
    finite (ofNat n) = true ∧ sign (ofNat n) = false ∧ units (ofNat n) = n * unitsPerOne := by
  have hfits : Fits (n * unitsPerOne) := ⟨n, 1074, hn, rfl⟩
  have hlt : n * unitsPerOne < unitsOfMag infMag := by
    have hmax : 2 ^ 53 * unitsPerOne ≤ unitsOfMag infMag := by decide +kernel
    exact (Nat.mul_lt_mul_of_pos_right hn zero_lt_unitsPerOne).trans_le hmax
  have hround := roundMag_lt_of_fits hfits hlt
  exact ⟨(finite_round _ _ _).mpr hround, sign_round _ _ _, by rw [ofNat, units_round hround, unitsOfMag_roundMag_of_fits hfits]⟩

/-- A value that is not below 0, divided by a whole number from 1 on, stays finite and not below 0. -/
theorem div_ofNat_finite {f : F64} {n : ℕ} (hf : finite f = true) (hsign : sign f = false) (hn1 : 1 ≤ n) (hn : n < 2 ^ 53) :
    finite (div f (ofNat n)) = true ∧ 0 ≤ scaled (div f (ofNat n)) := by
  obtain ⟨hfin, hpos, hunits⟩ := ofNat_exact hn
  have hd : 0 < n * unitsPerOne := Nat.mul_pos hn1 zero_lt_unitsPerOne
  have hmag : mag (ofNat n) ≠ 0 := fun h => hd.ne' (by rw [← hunits, units, h]; rfl)
  have hquot : ((units f * unitsPerOne : ℕ) : ℝ) / (n * unitsPerOne : ℕ) ≤ units f / (1 : ℕ) := by
    rw [Nat.cast_mul, Nat.cast_mul, mul_div_mul_right _ _ unitsPerOne_pos.ne']
    exact div_le_div_of_nonneg_left (Nat.cast_nonneg _) (by norm_num) (by exact_mod_cast hn1)
  have hlt := (roundMag_lt_infMag_iff one_pos).mp (roundMag_lt_of_fits (fits_units f) (finite_iff_units_lt.mp hf))
  rw [div_of_finite hf hfin hmag, hunits, hsign, hpos, finite_round, roundMag_lt_infMag_iff hd]
  refine ⟨hquot.trans_lt hlt, ?_⟩
  rw [scaled_eq, bne_self_eq_false, sign_round, signUnit_false, one_mul]
  exact Int.natCast_nonneg _

/-- The units of the largest finite value bound those of every finite one. -/
theorem units_le_of_finite {x : F64} (hx : finite x = true) : (units x : ℝ) ≤ (2 ^ 53 - 1) * 2 ^ 2045 := by
  have hmax : unitsOfMag (infMag - 1) = (2 ^ 53 - 1) * 2 ^ 2045 := by decide +kernel
  rw [finite, decide_eq_true_eq] at hx
  have hle : units x ≤ unitsOfMag (infMag - 1) := unitsOfMag_strictMono.monotone (by omega)
  rw [hmax, ← Nat.cast_le (α := ℝ), Nat.cast_mul, Nat.cast_pow, Nat.cast_pred (Nat.two_pow_pos 53), Nat.cast_pow] at hle
  exact hle

/-- A sum with a value in [0, 1) does not overflow, since half a unit of the largest finite value's last place is far above 1. -/
theorem finite_add_of_lt_one {a b : F64} (ha : finite a = true) (hb : finite b = true) (ha0 : 0 ≤ scaled a)
    (ha1 : scaled a < unitsPerOne) (hb0 : 0 ≤ scaled b) : finite (add a b) = true := by
  have hsum : (scaled a + scaled b).natAbs = units a + units b := by
    rw [scaled_eq_units ha0, scaled_eq_units hb0]
    omega
  have ha' : units a < unitsPerOne := by rw [scaled_eq_units ha0] at ha1; exact_mod_cast ha1
  rw [add_of_finite ha hb, finite_ofScaled, hsum, roundMag_lt_infMag_iff one_pos, Nat.cast_one, div_one, Nat.cast_add]
  have hone : (units a : ℝ) < 2 ^ 1074 := by rw [← unitsPerOne_cast]; exact_mod_cast ha'
  have hmax := units_le_of_finite hb
  have hhalf : (2 : ℝ) ^ 2045 = 2 ^ 1 * 2 ^ 2044 := two_pow_add rfl
  have hsmall : (2 : ℝ) ^ 1074 ≤ 2 ^ 2044 := pow_le_pow_right₀ one_le_two (by norm_num)
  rw [hhalf] at hmax ⊢
  generalize (2 : ℝ) ^ 1074 = u at *
  generalize (2 : ℝ) ^ 2044 = v at *
  linarith

end Sys2Proof.Fp

namespace Sys2Proof.Machine

/-- OSC_FREQ is finite with a clear sign bit (R270). -/
theorem finite_of_freqValid {f : F64} (h : f = Fp.zero ∨ validF0 f = true) : Fp.finite f = true ∧ Fp.sign f = false := by
  rcases h with rfl | h
  · decide
  · obtain ⟨hfin, hpos⟩ := validF0_iff.mp h
    refine ⟨hfin, ?_⟩
    rw [Fp.scaled] at hpos
    split at hpos
    · omega
    · simp_all

theorem State.Inv.sampleRate_range {s : State} (h : s.Inv) : 1 ≤ s.cfg.sampleRate ∧ s.cfg.sampleRate < 2 ^ 32 := by
  have hc := h.cfgWf
  simp only [Config.wf, Bool.and_eq_true, decide_eq_true_eq] at hc
  omega

/-- One sample period keeps the phase in [0, 1) (R270). -/
theorem inUnitInterval_advancePhase {rate : Nat} {f phase : F64} (h1 : 1 ≤ rate) (hrate : rate < 2 ^ 32)
    (hf : f = Fp.zero ∨ validF0 f = true) (hphase : inUnitInterval phase = true) :
    inUnitInterval (advancePhase rate f phase) = true := by
  obtain ⟨hffin, hfsign⟩ := finite_of_freqValid hf
  obtain ⟨hpfin, hp0, hp1⟩ := inUnitInterval_iff.mp hphase
  obtain ⟨hqfin, hq0⟩ := Fp.div_ofNat_finite hffin hfsign h1 (by omega)
  have htfin := Fp.finite_add_of_lt_one hpfin hqfin hp0 hp1 hq0
  have ht0 : 0 ≤ Fp.scaled (Fp.add phase (Fp.div f (Fp.ofNat rate))) := by
    rw [← Fp.scaled_zero, ← Fp.le_iff_scaled Fp.finite_zero htfin, Fp.add_of_finite hpfin hqfin]
    exact Fp.zero_le_ofScaled _ (by omega)
  obtain ⟨hfin, hfract⟩ := Fp.sub_floor_exact htfin ht0
  rw [advancePhase, inUnitInterval_iff, hfract]
  exact ⟨hfin, Int.natCast_nonneg _, Int.ofNat_lt.mpr (Nat.mod_lt _ Fp.zero_lt_unitsPerOne)⟩

/-! ### The steps -/

/-- A command keeps the phase, or starts it at 0 (R221). -/
theorem exec_oscPhase {i : Instr} {s t : State} (h : exec i s = .next t) : t.oscPhase = s.oscPhase ∨ t.oscPhase = Fp.zero := by
  rcases exec_next h with ⟨-, rfl⟩ | ⟨e, rfl, -⟩ | ⟨-, -, -, rfl⟩ | ⟨-, rfl⟩ | ⟨m, a, b, -, -, -, -, -, -, rfl⟩
    | ⟨u, -, -, -, hu, rfl⟩ | ⟨-, -, -, -, -, rfl⟩ | ⟨-, -, -, -, rfl⟩ | ⟨-, -, -, -, rfl⟩ | ⟨-, rfl⟩
  case inr.inr.inl => exact .inr rfl
  case inr.inr.inr.inr.inr.inl =>
    obtain ⟨-, -, -, -, rfl⟩ := accept_ok hu
    left
    split <;> rfl
  all_goals exact .inl rfl

theorem storeLoc_oscPhase {s t : State} {v : Word} {l : Loc} (h : storeLoc s v l = some t) : t.oscPhase = s.oscPhase := by
  cases l <;> simp only [storeLoc, Option.some.injEq, reduceCtorEq] at h <;> subst h <;> rfl

theorem completeJob_oscPhase (j : Job) (s : State) : (completeJob j s).oscPhase = s.oscPhase := by
  rcases completeJob_cases j s with ⟨-, h⟩ | ⟨spec, f0, -, -, h⟩ | ⟨-, -, h⟩ <;> rw [h] <;> rfl

/-- A step keeps the phase, starts it at 0, or advances it by one sample (R50). -/
theorem step_oscPhase {s t : State} (h : step s = .next t) :
    t.oscPhase = s.oscPhase ∨ t.oscPhase = Fp.zero ∨ t.oscPhase = advancePhase s.cfg.sampleRate s.oscFreq s.oscPhase := by
  rcases step_cases h with ⟨-, rfl⟩ | ⟨rest, a, n, -, r, rfl⟩ | ⟨rest, a, n, v, -, hwrite⟩ | ⟨rest, -, rfl⟩ | ⟨rest, -, rfl⟩
    | ⟨rest, j, -, -, rfl⟩ | ⟨rest, -, rfl⟩ | ⟨rest, -, rfl⟩
  · exact .inl rfl
  · exact .inl rfl
  · rcases hwrite with rfl | ⟨l, u, -, -, hu, rfl⟩ | ⟨-, -, rfl⟩ | ⟨i, -, -, -, hx⟩
    · exact .inl rfl
    · exact .inl (storeLoc_oscPhase hu :)
    · exact .inl rfl
    · exact (exec_oscPhase hx).imp_right .inl
  · rw [sampleTick_oscPhase]
    split
    · exact .inr (.inr rfl)
    · exact .inl rfl
  · exact .inl rfl
  · exact .inl (completeJob_oscPhase _ _)
  · exact .inl rfl
  · exact .inr (.inl rfl)

/-- Settles O44: the phase is kept, set to 0, or advanced, at a frequency that the invariant bounds. -/
theorem phaseStaysInUnitInterval : Obligations.PhaseStaysInUnitInterval := by
  intro s t h hphase hstep
  rcases step_oscPhase hstep with ht | ht | ht <;> rw [ht]
  · exact hphase
  · exact inUnitInterval_zero
  · obtain ⟨hrate1, hrate⟩ := h.sampleRate_range
    exact inUnitInterval_advancePhase hrate1 hrate h.freqValid hphase

end Sys2Proof.Machine
end

section
/-! PROOFS. The host port (spec/20_memory.md): which accesses it refuses, what a read answers and which state each offset shows (O10), how
a write is answered (O11), what a store to RW storage changes (O13), and the byte order (O14). -/

namespace Sys2Proof.Machine

/-! ### Words by their addresses -/

theorem wordAt_of_locate {s : State} {a : Addr} {l : Loc} (h : locate s.cfg a.toNat = some l) : wordAt s a = some (readLoc s l) := by
  rw [wordAt, h, Option.map_some]

theorem wordAt_eq_some_iff {s : State} {a : Addr} {w : Word} :
    wordAt s a = some w ↔ ∃ l, locate s.cfg a.toNat = some l ∧ readLoc s l = w :=
  Option.map_eq_some_iff

/-- Every offset is an address of the port's 32 bits (R63). -/
theorem offset_lt {c : Config} (hc : c.wf = true) {l : Loc} (h : l.index < l.size c) : l.offset < 2 ^ 32 := by
  have hb := buffer_bounds hc
  cases l <;> simp only [Loc.index, Loc.size, Loc.offset] at h ⊢ <;> omega

/-- The address of a location shows its value (R61, R63). -/
theorem wordAt_offset {s : State} (hc : s.cfg.wf = true) {l : Loc} (h : l.index < l.size s.cfg) :
    wordAt s (BitVec.ofNat 32 l.offset) = some (readLoc s l) := by
  refine wordAt_of_locate ?_
  rw [BitVec.toNat_ofNat, Nat.mod_eq_of_lt (offset_lt hc h)]
  exact locate_of_offset hc h

/-- Locations are 8 bytes apart (R60). -/
theorem locate_aligned {c : Config} {a : Nat} {l : Loc} (h : locate c a = some l) : a % 8 = 0 := by
  rw [locate_offset h]
  cases l <;> simp only [Loc.offset] <;> omega

/-- A location has one address (R63). -/
theorem addr_eq_of_locate {c : Config} {a b : Addr} {l : Loc} (ha : locate c a.toNat = some l) (hb : locate c b.toNat = some l) :
    a = b :=
  BitVec.eq_of_toNat_eq ((locate_offset ha).trans (locate_offset hb).symm)

/-- What is still to come, and what was answered last, show at no location (log entries 1 and 10). -/
@[simp] theorem readLoc_withSchedule (s : State) (es : List Event) (l : Loc) : readLoc { s with schedule := es } l = readLoc s l := by
  cases l <;> rfl

@[simp] theorem readLoc_respond (r : Response) (s : State) (l : Loc) : readLoc (respond r s) l = readLoc s l := by
  cases l <;> rfl

@[simp] theorem wordAt_withSchedule (s : State) (es : List Event) (a : Addr) : wordAt { s with schedule := es } a = wordAt s a :=
  congrArg (Option.map · (locate s.cfg a.toNat)) (funext (readLoc_withSchedule s es))

@[simp] theorem wordAt_respond (r : Response) (s : State) (a : Addr) : wordAt (respond r s) a = wordAt s a :=
  congrArg (Option.map · (locate s.cfg a.toNat)) (funext (readLoc_respond r s))

/-! ### Refused and accepted accesses -/

/-- The port reaches a location exactly where it does not refuse a read (R64 cases 1 to 3). -/
theorem not_readRefused_iff {c : Config} (hc : c.wf = true) (a : Addr) (n : Nat) :
    ¬ readRefused c a.toNat n ↔ ∃ l, accessed c a n = some l := by
  have hlocated := locate_isSome_iff hc (a := a.toNat)
  rw [Option.isSome_iff_exists] at hlocated
  simp only [readRefused, not_or, not_not, accessed]
  split
  · next hn => rw [hlocated]; tauto
  · next hn => simp [hn]

/-- The port reaches a location that it may store exactly where it does not refuse a write (R64 cases 1 to 4). -/
theorem not_writeRefused_iff {s : State} (hc : s.cfg.wf = true) (a : Addr) (n : Nat) (v : Word) :
    ¬ writeRefused s.cfg a.toNat n ↔ ∃ l u, accessed s.cfg a n = some l ∧ storeLoc s v l = some u := by
  have hwritable := locate_writable_iff (s := s) (v := v) hc (a := a.toNat)
  simp only [Option.isSome_iff_exists, ← exists_and_left] at hwritable
  simp only [writeRefused, readRefused, not_or, not_not, accessed]
  split
  · next hn => rw [hwritable]; tauto
  · next hn => simp [hn]

/-! ### Reads -/

theorem hostRead_of_refused {s : State} {a : Addr} {n : Nat} (hc : s.cfg.wf = true) (h : readRefused s.cfg a.toNat n) :
    hostRead a n s = respond .busError s := by
  have hnone : accessed s.cfg a n = none :=
    Option.eq_none_iff_forall_ne_some.mpr fun l hl => (not_readRefused_iff hc a n).mpr ⟨l, hl⟩ h
  rw [hostRead, hnone]

theorem hostRead_of_accessed {s : State} {a : Addr} {n : Nat} {l : Loc} (h : accessed s.cfg a n = some l) :
    hostRead a n s = respond (.read (readLoc s l)) s := by
  rw [hostRead, h]

/-- A read's response is all that a read changes (R61). -/
theorem step_hostRead {s : State} {a : Addr} {n : Nat} {rest : List Event} (hc : s.cfg.wf = true)
    (hs : s.schedule = .hostRead a n :: rest) :
    (readRefused s.cfg a.toNat n → step s = .next { s with schedule := rest, response := some .busError })
      ∧ (¬ readRefused s.cfg a.toNat n →
          ∃ w, wordAt s a = some w ∧ step s = .next { s with schedule := rest, response := some (.read w) }) := by
  rw [step_of_cons hs, perform]
  refine ⟨fun h => ?_, fun h => ?_⟩
  · rw [hostRead_of_refused (s := { s with schedule := rest }) hc h]
    rfl
  · obtain ⟨l, hl⟩ := (not_readRefused_iff hc a n).mp h
    obtain ⟨-, hlocate⟩ := accessed_some hl
    refine ⟨readLoc s l, wordAt_of_locate hlocate, ?_⟩
    rw [hostRead_of_accessed (s := { s with schedule := rest }) hl, readLoc_withSchedule]
    rfl

theorem some_element {xs : List F64} {i : Nat} (h : i < xs.length) : some (element xs i) = xs[i]? := by
  rw [element, List.getD_eq_getElem _ _ h, List.getElem?_eq_getElem h]

theorem xfProgress_of_dual {s : State} {o n : FilterSlot} {p : F64} (h : s.occ = .dual o n p) : s.xfProgress = p := by
  rw [State.xfProgress, h]

/-- Without a crossfade XF_PROGRESS shows +0.0 (R35). -/
theorem xfProgress_of_not_dual {s : State} (h : ∀ o n p, s.occ ≠ .dual o n p) : s.xfProgress = Fp.zero := by
  rw [State.xfProgress]
  split
  · next o n p hocc => exact absurd hocc (h o n p)
  · rfl
  · rfl

/-- Without a filter EXPORT_IR shows zeros (R37). -/
theorem exportIr_of_empty {s : State} (h : s.occ = .empty) : s.exportIr = List.replicate s.cfg.fftSize Fp.zero := by
  rw [State.exportIr, h]

/-- EXPORT_IR's window shows the elements of the list it stands for (R37). -/
theorem wordAt_exportIr {s : State} {i : Nat} {ir : List F64} (hc : s.cfg.wf = true) (hi : i < s.cfg.fftSize)
    (hir : s.exportIr = ir) (hlen : ir.length = s.cfg.fftSize) :
    wordAt s (BitVec.ofNat 32 (0x50000 + 8 * i)) = ir[i]? := by
  subst hir
  exact (wordAt_offset (l := .exportIr i) hc hi).trans (some_element (hlen.symm ▸ hi))

/-- Settles O10: a read answers the located word; a register's offset is a literal, at which the map computes, and a buffer's is
its location's. -/
theorem hostReadAnswers : Obligations.HostReadAnswers := by
  refine ⟨fun s a n rest hc hs => ?_, fun s => ?_, fun s i h => ⟨fun hi => ?_, fun hi => ?_⟩⟩
  · obtain ⟨hrefused, hanswered⟩ := step_hostRead hc hs
    exact ⟨hrefused, hanswered, rfl⟩
  · have hprogress : wordAt s 0x58#32 = some s.xfProgress := rfl
    refine ⟨rfl, rfl, rfl, rfl, rfl, rfl, rfl, rfl, rfl, rfl, rfl, fun o n p hocc => ?_, fun hocc => ?_, rfl, rfl, rfl, rfl, rfl⟩
    · rw [hprogress, xfProgress_of_dual hocc]
    · rw [hprogress, xfProgress_of_not_dual hocc]
      rfl
  · obtain ⟨hspecIn, hspecOut, -, -⟩ := memory_wf_iff.mp h.memoryWf
    exact ⟨(wordAt_offset (l := .specIn i) h.cfgWf hi).trans (some_element (hspecIn.symm ▸ hi)),
      (wordAt_offset (l := .specOut i) h.cfgWf hi).trans (some_element (hspecOut.symm ▸ hi))⟩
  · obtain ⟨-, -, hirIn, hirOut⟩ := memory_wf_iff.mp h.memoryWf
    have hocc := h.occOk
    refine ⟨(wordAt_offset (l := .irIn i) h.cfgWf hi).trans (some_element (hirIn.symm ▸ hi)),
      (wordAt_offset (l := .irOut i) h.cfgWf hi).trans (some_element (hirOut.symm ▸ hi)), fun he => ?_, fun a ha => ?_,
      fun o n p hd => ?_⟩
    · rw [wordAt_exportIr h.cfgWf hi (exportIr_of_empty he) List.length_replicate, List.getElem?_replicate_of_lt hi]
      rfl
    · rw [ha] at hocc
      obtain ⟨hlen, -⟩ := hocc
      exact wordAt_exportIr h.cfgWf hi (exportIr_of_single ha) hlen
    · rw [hd] at hocc
      obtain ⟨-, ⟨hlen, -⟩, -⟩ := hocc
      exact wordAt_exportIr h.cfgWf hi (exportIr_of_dual hd) hlen

/-! ### Writes -/

/-- How a write is answered: refused with no other effect, or OK, whatever a command it issues does (R64, R237). -/
theorem hostWrite_response {s t : State} {a : Addr} {n : Nat} {v : Word} (hc : s.cfg.wf = true) (h : hostWrite a n v s = .next t) :
    (writeRefused s.cfg a.toNat n ∧ t = respond .busError s) ∨ (¬ writeRefused s.cfg a.toNat n ∧ t.response = some .written) := by
  have hiff := not_writeRefused_iff hc a n v
  rcases hostWrite_next h with ⟨ht, hnone⟩ | ⟨l, u, hl, -, hu, rfl⟩ | ⟨hcmd, e, -, rfl⟩ | ⟨hcmd, i, -, hx⟩
  · refine .inl ⟨not_not.mp fun hok => ?_, ht⟩
    obtain ⟨l, u, hl, hu⟩ := hiff.mp hok
    rw [hnone l hl] at hu
    cases hu
  · exact .inr ⟨hiff.mpr ⟨l, u, hl, hu⟩, rfl⟩
  · exact .inr ⟨hiff.mpr ⟨.cmd, _, hcmd, rfl⟩, rfl⟩
  · obtain ⟨-, -, -, -, -, -, -, -, -, -, hresponse, -⟩ := exec_keeps hx
    exact .inr ⟨hiff.mpr ⟨.cmd, _, hcmd, rfl⟩, hresponse⟩

/-- Settles O11: a write goes on in one of the two ways, by whether it is refused. -/
theorem hostWriteRefusedExactly : Obligations.HostWriteRefusedExactly := by
  intro s a n v rest hc hs
  obtain ⟨t, ht⟩ := hostWrite_completes a n v { s with schedule := rest }
  rw [step_of_cons hs, perform, ht]
  rcases hostWrite_response (s := { s with schedule := rest }) hc ht with ⟨hrefused, rfl⟩ | ⟨hok, hresponse⟩
  · exact ⟨fun _ => rfl, absurd hrefused⟩
  · exact ⟨fun hrefused => absurd hrefused hok, fun _ => ⟨t, rfl, hresponse⟩⟩

/-! ### Storage -/

/-- An aligned word of RW storage may be written (R62, R64). -/
theorem not_writeRefused_of_storage {c : Config} {a : Nat} (h8 : a % 8 = 0) (h : storageOffset c a) : ¬ writeRefused c a 8 := by
  have hmapped : mappedOffset c a := by
    simp only [storageOffset, mappedOffset] at h ⊢
    omega
  simp [writeRefused, readRefused, h8, hmapped, h]

/-- CMD is no RW storage (R63). -/
theorem ne_cmd_of_storage {c : Config} {a : Nat} {l : Loc} (hl : locate c a = some l) (h : storageOffset c a) : l ≠ .cmd := by
  rintro rfl
  have ha := locate_offset hl
  simp only [storageOffset, Loc.offset] at h ha
  omega

theorem hostWrite_of_storeLoc {s u : State} {a : Addr} {n : Nat} {v : Word} {l : Loc} (hl : accessed s.cfg a n = some l)
    (hcmd : l ≠ .cmd) (hu : storeLoc s v l = some u) : hostWrite a n v s = .next (respond .written u) := by
  simp only [hostWrite, hl, hu, if_neg hcmd]

/-- A located element stands in its buffer's list (R42 to R45). -/
theorem inBuffer_of_locate {s : State} {a : Nat} {l : Loc} (hm : Memory.wf s = true) (h : locate s.cfg a = some l) :
    l.inBuffer s = true := by
  obtain ⟨hspecIn, -, hirIn, -⟩ := memory_wf_iff.mp hm
  have hi := locate_index h
  cases l with
  | specIn i => exact decide_eq_true (hspecIn.symm ▸ hi)
  | irIn i => exact decide_eq_true (hirIn.symm ▸ hi)
  | _ => rfl

/-- A store to RW storage changes RW storage alone (R62). -/
theorem storeLoc_frame {s u : State} {v : Word} {l : Loc} (hcmd : l ≠ .cmd) (h : storeLoc s v l = some u) :
    { u with xstepIn := s.xstepIn, f0In := s.f0In, shiftIn := s.shiftIn, specIn := s.specIn, irIn := s.irIn } = s := by
  cases l <;> simp only [storeLoc, Option.some.injEq, reduceCtorEq] at h <;> subst h
  case cmd => exact absurd rfl hcmd
  all_goals rfl

/-- A store shows at its own address, and at no other (R62). -/
theorem wordAt_storeLoc {s u : State} {a : Addr} {v : Word} {l : Loc} (hm : Memory.wf s = true)
    (hl : locate s.cfg a.toNat = some l) (hu : storeLoc s v l = some u) :
    wordAt u a = some v ∧ ∀ b, b ≠ a → wordAt u b = wordAt s b := by
  have hcfg := storeLoc_cfg hu
  refine ⟨?_, fun b hb => ?_⟩
  · rw [wordAt_of_locate (hcfg ▸ hl), readLoc_storeLoc_self hu (inBuffer_of_locate hm hl)]
  · rw [wordAt, wordAt, hcfg]
    refine Option.map_congr fun m hmem => readLoc_storeLoc_other hu ?_
    rintro rfl
    exact hb (addr_eq_of_locate hmem hl)

/-- Settles O13: the write is a store to a location of RW storage, and the store's laws say the rest. -/
theorem storageWriteReadsBack : Obligations.StorageWriteReadsBack := by
  intro s a v rest h h8 hstorage hs
  have hrest := h.withSchedule rest
  obtain ⟨l, u, hl, hu⟩ := (not_writeRefused_iff hrest.cfgWf a 8 v).mp (not_writeRefused_of_storage h8 hstorage)
  obtain ⟨-, hlocate⟩ := accessed_some hl
  have hcmd := ne_cmd_of_storage hlocate hstorage
  obtain ⟨hself, hother⟩ := wordAt_storeLoc hrest.memoryWf hlocate hu
  have hframe := storeLoc_frame hcmd hu
  refine ⟨respond .written u, ?_, ?_, fun b hb => ?_, ?_⟩
  · rw [step_of_cons hs, perform, hostWrite_of_storeLoc hl hcmd hu]
  · rw [wordAt_respond, hself]
  · rw [wordAt_respond, hother b hb, wordAt_withSchedule]
  · exact congrArg (fun r : State => { r with response := s.response, schedule := s.schedule }) hframe

/-! ### Bytes -/

/-- The bytes of a location are its 8 addresses, none past the last address (R60). -/
theorem toNat_add_of_aligned {a : Addr} {j : Nat} (ha : a.toNat % 8 = 0) (hj : j < 8) : (a + BitVec.ofNat 32 j).toNat = a.toNat + j := by
  have hlt := a.isLt
  rw [BitVec.toNat_add, BitVec.toNat_ofNat]
  omega

/-- Settles O14: the byte's address is in its word's 8, at place `j`, and the byte is the word's bits shifted down to 0. -/
theorem bytesAreLittleEndian : Obligations.BytesAreLittleEndian := by
  intro s a w j hw hj
  obtain ⟨l, hl, rfl⟩ := wordAt_eq_some_iff.mp hw
  have h8 := locate_aligned hl
  have hword : (a.toNat + j) / 8 * 8 = a.toNat := by omega
  have hplace : (a.toNat + j) % 8 = j := by omega
  rw [byteAt, toNat_add_of_aligned h8 hj, hword, hplace, hl, Option.map_some, BitVec.extractLsb', Nat.shiftRight_eq_div_pow]

end Sys2Proof.Machine
end

section
/-! PROOFS. The command word (spec/30_encoding.md R90 to R97): the table's rows as conditions on a word's number, at most one of them
met (O3), the words that meet none (O4), decode and encode as inverses of each other (O1, O2), the worked words (O5), an illegal word
written to CMD (O7), and CONFIG's word in ACT_CFG (O21). -/

namespace Sys2Proof

open Laws.EncodeMatchesRow (commandWord_toNat)

/-! ### A field under a mask -/

/-- A field that the mask covers with ones is kept. -/
theorem and_field_of_ones {x m : Nat} (k n : Nat) (h : m / 2 ^ k % 2 ^ n = 2 ^ n - 1) :
    (x &&& m) / 2 ^ k % 2 ^ n = x / 2 ^ k % 2 ^ n := by
  rw [Nat.and_div_two_pow, Nat.and_mod_two_pow, h, Nat.and_two_pow_sub_one_eq_mod, Nat.mod_mod]

/-- A field that the mask covers with zeros is cleared. -/
theorem and_field_of_zeros {x m : Nat} (k n : Nat) (h : m / 2 ^ k % 2 ^ n = 0) : (x &&& m) / 2 ^ k % 2 ^ n = 0 := by
  rw [Nat.and_div_two_pow, Nat.and_mod_two_pow, h, Nat.and_zero]

/-! ### The rows of R93 -/

/-- The row of a command without operands: its own word, every bit compared. -/
def fixedRow (i : Instr) : OpcodeRow := ⟨encode i, BitVec.allOnes 64, fun _ => i⟩

/-- The row of CONFIG. -/
def configRow : OpcodeRow :=
  ⟨0x0000000000000003#64, 0xFFFF00000000FEFF#64, fun w => .config (modeField w) (scapField w) (fcapField w)⟩

/-- The row of FRAME. -/
def frameRow : OpcodeRow := ⟨0x0000000000000004#64, 0xFFFFFFFFFFFFFEFF#64, fun w => .frame (vField w)⟩

/-- The commands without operands in the word (R92). -/
def fixedCommands : List Instr := [.nop, .start, .stop, .synth, .push, .install, .setfreq, .clrerr]

/-- The table's rows are those of the eight commands without operands, CONFIG's and FRAME's. -/
theorem mem_opcodeTable {r : OpcodeRow} :
    r ∈ opcodeTable ↔ (∃ i ∈ fixedCommands, r = fixedRow i) ∨ r = configRow ∨ r = frameRow := by
  have htable : opcodeTable = [fixedRow .nop, fixedRow .start, fixedRow .stop, configRow, frameRow, fixedRow .synth,
    fixedRow .push, fixedRow .install, fixedRow .setfreq, fixedRow .clrerr] := rfl
  simp only [htable, fixedCommands, List.mem_cons, List.not_mem_nil, or_false, exists_eq_or_imp, exists_eq_left]
  tauto

theorem selects_iff {r : OpcodeRow} {w : Word} : r.selects w = true ↔ w.toNat &&& r.mask.toNat = r.pattern.toNat := by
  rw [OpcodeRow.selects, beq_iff_eq, ← BitVec.toNat_inj, BitVec.toNat_and]

theorem fixedRow_selects_iff {i : Instr} {w : Word} : (fixedRow i).selects w = true ↔ w = encode i := by
  rw [OpcodeRow.selects, beq_iff_eq, fixedRow, BitVec.and_allOnes]

/-- CONFIG's row asks for OPC 3 and zeros in bits 15:9 and 63:48. -/
theorem configRow_selects_iff {w : Word} :
    configRow.selects w = true ↔ w.toNat % 2 ^ 8 = 3 ∧ w.toNat / 2 ^ 9 % 2 ^ 7 = 0 ∧ w.toNat / 2 ^ 48 = 0 := by
  have hw := w.isLt
  have hmask : configRow.mask.toNat = 0xFFFF00000000FEFF := rfl
  have hpattern : configRow.pattern.toNat = 3 := rfl
  rw [selects_iff, hmask, hpattern]
  have hopc := and_field_of_ones (x := w.toNat) (m := 0xFFFF00000000FEFF) 0 8 rfl
  have hmode := and_field_of_zeros (x := w.toNat) (m := 0xFFFF00000000FEFF) 8 1 rfl
  have hgap := and_field_of_ones (x := w.toNat) (m := 0xFFFF00000000FEFF) 9 7 rfl
  have hcaps := and_field_of_zeros (x := w.toNat) (m := 0xFFFF00000000FEFF) 16 32 rfl
  have hhigh := and_field_of_ones (x := w.toNat) (m := 0xFFFF00000000FEFF) 48 16 rfl
  have hle : w.toNat &&& 0xFFFF00000000FEFF ≤ w.toNat := Nat.and_le_left
  omega

/-- FRAME's row asks for OPC 4 and zeros in bits 63:9. -/
theorem frameRow_selects_iff {w : Word} : frameRow.selects w = true ↔ w.toNat % 2 ^ 8 = 4 ∧ w.toNat / 2 ^ 9 = 0 := by
  have hw := w.isLt
  have hmask : frameRow.mask.toNat = 0xFFFFFFFFFFFFFEFF := rfl
  have hpattern : frameRow.pattern.toNat = 4 := rfl
  rw [selects_iff, hmask, hpattern]
  have hopc := and_field_of_ones (x := w.toNat) (m := 0xFFFFFFFFFFFFFEFF) 0 8 rfl
  have hv := and_field_of_zeros (x := w.toNat) (m := 0xFFFFFFFFFFFFFEFF) 8 1 rfl
  have hhigh := and_field_of_ones (x := w.toNat) (m := 0xFFFFFFFFFFFFFEFF) 9 55 rfl
  have hle : w.toNat &&& 0xFFFFFFFFFFFFFEFF ≤ w.toNat := Nat.and_le_left
  omega

/-- The words of the commands without operands: the opcode alone. -/
theorem exists_fixed_encode_iff {w : Word} :
    (∃ i ∈ fixedCommands, w = encode i) ↔ w.toNat < 0x0A ∧ w.toNat ≠ 3 ∧ w.toNat ≠ 4 := by
  have hencode : fixedCommands.map (fun i => (encode i).toNat) = [0, 1, 2, 5, 6, 7, 8, 9] := by decide
  have hmem : (∃ i ∈ fixedCommands, w = encode i) ↔ w.toNat ∈ fixedCommands.map fun i => (encode i).toNat := by
    simp only [List.mem_map, BitVec.toNat_inj, eq_comm]
  rw [hmem, hencode]
  simp only [List.mem_cons, List.not_mem_nil, or_false]
  omega

/-- The selected words, row kind by row kind. -/
theorem exists_selects_iff {w : Word} :
    (∃ r ∈ opcodeTable, r.selects w = true) ↔
      (∃ i ∈ fixedCommands, w = encode i) ∨ configRow.selects w = true ∨ frameRow.selects w = true := by
  constructor
  · rintro ⟨r, hr, h⟩
    obtain ⟨i, hi, rfl⟩ | rfl | rfl := mem_opcodeTable.mp hr
    · exact .inl ⟨i, hi, fixedRow_selects_iff.mp h⟩
    · exact .inr (.inl h)
    · exact .inr (.inr h)
  · rintro (⟨i, hi, h⟩ | h | h)
    · exact ⟨_, mem_opcodeTable.mpr (.inl ⟨i, hi, rfl⟩), fixedRow_selects_iff.mpr h⟩
    · exact ⟨_, mem_opcodeTable.mpr (.inr (.inl rfl)), h⟩
    · exact ⟨_, mem_opcodeTable.mpr (.inr (.inr rfl)), h⟩

/-! ### At most one row -/

/-- Every row compares OPC, so a word that selects it has its opcode. -/
theorem opcode_of_selects {r : OpcodeRow} {w : Word} (hr : r ∈ opcodeTable) (h : r.selects w = true) :
    w.toNat % 2 ^ 8 = r.pattern.toNat % 2 ^ 8 := by
  have hmask : ∀ r ∈ opcodeTable, r.mask.toNat / 2 ^ 0 % 2 ^ 8 = 2 ^ 8 - 1 := by decide
  have hopc := and_field_of_ones (x := w.toNat) 0 8 (hmask r hr)
  rw [selects_iff.mp h, pow_zero, Nat.div_one, Nat.div_one] at hopc
  exact hopc.symm

/-- The rows stand in the order of their opcodes, 0 to 9. -/
theorem opcodeTable_opcodes : opcodeTable.map (fun r => r.pattern.toNat % 2 ^ 8) = List.range 10 := by decide

theorem opcodeTable_opcodes_nodup : (opcodeTable.map fun r => r.pattern.toNat % 2 ^ 8).Nodup :=
  opcodeTable_opcodes ▸ List.nodup_range

/-- Two rows that one word selects are one row. -/
theorem selects_unique {r r' : OpcodeRow} {w : Word} (hr : r ∈ opcodeTable) (hr' : r' ∈ opcodeTable)
    (h : r.selects w = true) (h' : r'.selects w = true) : r = r' :=
  List.inj_on_of_nodup_map opcodeTable_opcodes_nodup hr hr'
    ((opcode_of_selects hr h).symm.trans (opcode_of_selects hr' h'))

/-- Settles O3: the selected rows are distinct rows of the table, and any two of them are one. -/
theorem atMostOneRowMatches : Obligations.AtMostOneRowMatches := by
  intro w
  have hnodup := (List.Nodup.of_map _ opcodeTable_opcodes_nodup).filter fun r => r.selects w
  have hsame : ∀ r ∈ opcodeTable.filter fun r => r.selects w, ∀ r' ∈ opcodeTable.filter fun r => r.selects w, r = r' := by
    intro r hr r' hr'
    obtain ⟨hmem, hsel⟩ := List.mem_filter.mp hr
    obtain ⟨hmem', hsel'⟩ := List.mem_filter.mp hr'
    exact selects_unique hmem hmem' hsel hsel'
  generalize opcodeTable.filter (fun r => r.selects w) = rows at hnodup hsame
  match rows with
  | [] => exact Nat.zero_le 1
  | [_] => exact le_rfl
  | r :: r' :: rest =>
    have hne : r ≠ r' := List.ne_of_not_mem_cons hnodup.notMem
    exact absurd (hsame r (by simp) r' (by simp)) hne

/-! ### What the decoder answers -/

/-- The row that the decoder finds is a row of the table, and selected. -/
theorem selects_of_find {r : OpcodeRow} {w : Word} (h : opcodeTable.find? (fun r => r.selects w) = some r) :
    r ∈ opcodeTable ∧ r.selects w = true :=
  ⟨List.mem_of_find?_eq_some h, List.find?_some (p := fun r : OpcodeRow => r.selects w) h⟩

/-- The decoder answers the command of the row that the word selects. -/
theorem decode_of_selects {r : OpcodeRow} {w : Word} (hr : r ∈ opcodeTable) (h : r.selects w = true) :
    decode w = .ok (r.build w) := by
  unfold decode
  cases hfind : opcodeTable.find? fun r => r.selects w with
  | none => exact absurd h (List.find?_eq_none.mp hfind r hr)
  | some r' =>
    obtain ⟨hr', h'⟩ := selects_of_find hfind
    rw [selects_unique hr hr' h h']

theorem decode_eq_ok_iff {w : Word} {i : Instr} :
    decode w = .ok i ↔ ∃ r ∈ opcodeTable, r.selects w = true ∧ r.build w = i := by
  constructor
  · intro h
    unfold decode at h
    split at h
    next r hfind =>
      obtain ⟨hr, hsel⟩ := selects_of_find hfind
      exact ⟨r, hr, hsel, Except.ok.inj h⟩
    next => split at h <;> cases h
  · rintro ⟨r, hr, h, rfl⟩
    exact decode_of_selects hr h

/-- The decoder refuses exactly the words that select no row (R96). -/
theorem exists_decode_error_iff {w : Word} : (∃ e, decode w = .error e) ↔ ¬ ∃ r ∈ opcodeTable, r.selects w = true := by
  constructor
  · rintro ⟨e, he⟩ ⟨r, hr, h⟩
    rw [decode_of_selects hr h] at he
    cases he
  · intro hnone
    cases hd : decode w with
    | error e => exact ⟨e, rfl⟩
    | ok i =>
      obtain ⟨r, hr, h, -⟩ := decode_eq_ok_iff.mp hd
      exact absurd ⟨r, hr, h⟩ hnone

/-- Settles O4: the words outside the conditions of all ten rows, as conditions on the word's number. -/
theorem illegalWordsAreReservedOrNonzero : Obligations.IllegalWordsAreReservedOrNonzero := by
  intro w
  rw [exists_decode_error_iff, exists_selects_iff, exists_fixed_encode_iff, configRow_selects_iff, frameRow_selects_iff]
  omega

/-! ### The fields of a word -/

theorem opcodeField_toNat (w : Word) : (opcodeField w).toNat = w.toNat % 2 ^ 8 := by
  rw [opcodeField, BitVec.extractLsb'_toNat, Nat.shiftRight_zero]

theorem scapField_eq (w : Word) : scapField w = w.toNat / 2 ^ 16 % 2 ^ 16 := by
  rw [scapField, BitVec.extractLsb'_toNat, Nat.shiftRight_eq_div_pow]

theorem fcapField_eq (w : Word) : fcapField w = w.toNat / 2 ^ 32 % 2 ^ 16 := by
  rw [fcapField, BitVec.extractLsb'_toNat, Nat.shiftRight_eq_div_pow]

theorem modeField_bit (w : Word) : (modeField w).bit = w.getLsbD 8 := by
  cases h : w.getLsbD 8 <;> rw [modeField, h] <;> rfl

theorem modeField_of_bit {w : Word} {m : SmoothMode} (h : w.getLsbD 8 = m.bit) : modeField w = m := by
  cases m <;> rw [modeField, h] <;> rfl

/-- The fields of a command word are what it was made of (R91). -/
theorem commandWord_fields (fcap scap : Nat) (mv : Bool) (opc : BitVec 8) :
    fcapField (commandWord fcap scap mv opc) = fcap % 2 ^ 16 ∧ scapField (commandWord fcap scap mv opc) = scap % 2 ^ 16
      ∧ (commandWord fcap scap mv opc).getLsbD 8 = mv := by
  have hopc := opc.isLt
  rw [fcapField_eq, scapField_eq, Machine.getLsbD_eq_decide, commandWord_toNat]
  cases mv <;> simp <;> omega

/-- A word whose must-be-0 bits are 0 is the command word of its fields (R91). -/
theorem commandWord_of_fields {w : Word} (hgap : w.toNat / 2 ^ 9 % 2 ^ 7 = 0) (hhigh : w.toNat / 2 ^ 48 = 0) :
    commandWord (fcapField w) (scapField w) (w.getLsbD 8) (opcodeField w) = w := by
  apply BitVec.eq_of_toNat_eq
  rw [commandWord_toNat, opcodeField_toNat, scapField_eq, fcapField_eq, Machine.getLsbD_eq_decide]
  split
  next h => have := of_decide_eq_true h; omega
  next h => have := of_decide_eq_false (Bool.eq_false_iff.mpr h); omega

/-! ### Decode after encode -/

theorem decode_encode_fixed {i : Instr} (h : i ∈ fixedCommands) : decode (encode i) = .ok i :=
  decode_of_selects (mem_opcodeTable.mpr (.inl ⟨i, h, rfl⟩)) (fixedRow_selects_iff.mpr rfl)

theorem decode_encode_config {m : SmoothMode} {scap fcap : Nat} (hscap : scap < 2 ^ 16) (hfcap : fcap < 2 ^ 16) :
    decode (encode (.config m scap fcap)) = .ok (.config m scap fcap) := by
  obtain ⟨hopc, hgap, hhigh⟩ := Laws.EncodeMatchesRow.config m scap fcap
  obtain ⟨hfcapField, hscapField, hmode⟩ := commandWord_fields fcap scap m.bit 0x03#8
  rw [decode_of_selects (mem_opcodeTable.mpr (.inr (.inl rfl))) (configRow_selects_iff.mpr ⟨hopc, hgap, hhigh⟩)]
  simp only [configRow, encode, Instr.opcode, hfcapField, hscapField, modeField_of_bit hmode, Nat.mod_eq_of_lt hscap,
    Nat.mod_eq_of_lt hfcap]

theorem decode_encode_frame (v : Bool) : decode (encode (.frame v)) = .ok (.frame v) := by
  obtain ⟨-, -, hv⟩ := commandWord_fields 0 0 v 0x04#8
  rw [decode_of_selects (mem_opcodeTable.mpr (.inr (.inr rfl))) (frameRow_selects_iff.mpr (Laws.EncodeMatchesRow.frame v))]
  simp only [frameRow, vField, encode, Instr.opcode, hv]

/-- Settles O1: the word of each command selects the command's row, whose operands are the fields it was made of. -/
theorem decodeOfEncode : Obligations.DecodeOfEncode := by
  intro i hwf
  cases i with
  | config m scap fcap =>
    obtain ⟨hscap, hfcap⟩ : scap < 2 ^ 16 ∧ fcap < 2 ^ 16 := by simpa [Instr.wf] using hwf
    exact decode_encode_config hscap hfcap
  | frame v => exact decode_encode_frame v
  | nop | start | stop | synth | push | install | setfreq | clrerr => exact decode_encode_fixed (by decide)

/-! ### Encode after decode -/

/-- A word that selects CONFIG's row is the word of a well-formed CONFIG. -/
theorem encode_of_configRow {w : Word} (h : configRow.selects w = true) :
    (configRow.build w).wf = true ∧ encode (configRow.build w) = w := by
  obtain ⟨hopc, hgap, hhigh⟩ := configRow_selects_iff.mp h
  have hopcode : opcodeField w = 0x03#8 := BitVec.eq_of_toNat_eq ((opcodeField_toNat w).trans hopc)
  refine ⟨Bool.and_eq_true_iff.mpr ⟨decide_eq_true (BitVec.isLt _), decide_eq_true (BitVec.isLt _)⟩, ?_⟩
  calc encode (configRow.build w)
      = commandWord (fcapField w) (scapField w) (modeField w).bit 0x03#8 := rfl
    _ = commandWord (fcapField w) (scapField w) (w.getLsbD 8) (opcodeField w) := by rw [modeField_bit, hopcode]
    _ = w := commandWord_of_fields hgap hhigh

/-- A word that selects FRAME's row is the word of a FRAME. -/
theorem encode_of_frameRow {w : Word} (h : frameRow.selects w = true) : encode (frameRow.build w) = w := by
  obtain ⟨hopc, hzero⟩ := frameRow_selects_iff.mp h
  have hopcode : opcodeField w = 0x04#8 := BitVec.eq_of_toNat_eq ((opcodeField_toNat w).trans hopc)
  have hscap : scapField w = 0 := by rw [scapField_eq]; omega
  have hfcap : fcapField w = 0 := by rw [fcapField_eq]; omega
  calc encode (frameRow.build w)
      = commandWord 0 0 (w.getLsbD 8) 0x04#8 := rfl
    _ = commandWord (fcapField w) (scapField w) (w.getLsbD 8) (opcodeField w) := by rw [hscap, hfcap, hopcode]
    _ = w := commandWord_of_fields (by omega) (by omega)

/-- Settles O2, by the row that the word selects. -/
theorem encodeOfDecode : Obligations.EncodeOfDecode := by
  intro w i h
  obtain ⟨r, hr, hsel, rfl⟩ := decode_eq_ok_iff.mp h
  obtain ⟨i, hi, rfl⟩ | rfl | rfl := mem_opcodeTable.mp hr
  · have hwf : ∀ i ∈ fixedCommands, i.wf = true := by decide
    exact ⟨hwf i hi, (fixedRow_selects_iff.mp hsel).symm⟩
  · exact encode_of_configRow hsel
  · exact ⟨rfl, encode_of_frameRow hsel⟩

/-! ### The worked words -/

/-- Settles O5: each listed word is the encoding of a well-formed command, so it decodes to it by O1; the two others break R91's
must-be-0 bits and R92's opcodes, so O4 refuses them. -/
theorem workedEncodings : Obligations.WorkedEncodings := by
  have worked {i : Instr} {w : Word} (hwf : i.wf = true) (h : encode i = w) : encode i = w ∧ decode w = .ok i :=
    ⟨h, h ▸ decodeOfEncode i hwf⟩
  exact ⟨worked rfl rfl, worked rfl rfl, worked rfl rfl, worked rfl rfl, worked rfl rfl, worked rfl rfl,
    (illegalWordsAreReservedOrNonzero _).mpr (by decide), (illegalWordsAreReservedOrNonzero _).mpr (by decide)⟩

end Sys2Proof

namespace Sys2Proof.Machine

/-! ### A word written to CMD -/

/-- A write to CMD stores the word, answers OK and issues the word (R27, R62). -/
theorem step_commandWrite {s : State} {w : Word} {rest : List Event} (hs : s.schedule = commandWrite w :: rest) :
    step s = issue w (fetched w { s with schedule := rest }) :=
  step_of_cons hs

/-- An illegal word is the error action and no more (R96). -/
theorem issue_of_illegal {s : State} {w : Word} {e : DecodeError} (h : decode w = .error e) :
    issue w s = .next (raiseError .illegalCmd s) := by
  rw [issue, h]

/-- Settles O7: the word is stored, and issuing it is the error action, which keeps the first code. -/
theorem illegalWordIsStoredAndRecorded : Obligations.IllegalWordIsStoredAndRecorded := by
  intro s w e rest hs he
  rw [step_commandWrite hs, issue_of_illegal he, fetched, raiseError]

/-! ### CONFIG's word in ACT_CFG -/

/-- ACT_CFG has the fields of CONFIG's word, and 0 where the word has its opcode (R29, R91, R94). -/
theorem actCfgWord_or_opcode (s : State) : s.actCfgWord ||| 3#64 = encode (.config s.mode s.specCap s.f0Cap) := by
  have hopc : 3#64 = 0#(16 + 16 + 16 + 7 + 1) ++ 0x03#8 := rfl
  rw [State.actCfgWord, hopc, BitVec.or_append, BitVec.or_zero, BitVec.zero_or]
  rfl

/-- A CONFIG that records no error is accepted, and sets the mode and the capacities (R222). -/
theorem exec_config_accepted {s t : State} {m : SmoothMode} {scap fcap : Nat} (h : exec (.config m scap fcap) s = .next t)
    (herr : t.err = none) : t = setConfig m scap fcap s.xstepIn s := by
  rcases issueGated_next h with ⟨e, -, rfl⟩ | ⟨e, -, -, rfl⟩ | ⟨-, hok⟩
  · simp [raiseError] at herr
  · simp [raiseError] at herr
  · obtain ⟨-, -, -, ht⟩ := configure_ok hok
    exact ht

/-- Settles O21: a clear record after CONFIG says that it was accepted, so ACT_CFG shows its fields. -/
theorem actCfgGivesConfigWordBack : Obligations.ActCfgGivesConfigWordBack := by
  intro s t m scap fcap _ h herr
  rw [exec_config_accepted h herr, actCfgWord_or_opcode]
  rfl

end Sys2Proof.Machine
end

section
/-! PROOFS. The transform of R129 (spec/40_synthesizer.md) is Mathlib's transform on the residues modulo `L`, so the folding of R124 and
the second transform of R125 are read there: an even log magnitude is the real part of the minimum-phase logarithm over `L`, and a constant
log magnitude is that logarithm over `L`. -/

namespace Sys2Proof.SynthRef

/-! ### Folding -/

section Folding

variable {L : ℕ}

/-- The folding of R124. -/
noncomputable def fold (C : ZMod L → ℂ) (k : ZMod L) : ℂ :=
  if k.val = 0 ∨ k.val = L / 2 then starRingEnd ℂ (C k)
  else if k.val < L / 2 then 2 * starRingEnd ℂ (C k)
  else 0

theorem fold_add (C D : ZMod L → ℂ) : fold (C + D) = fold C + fold D := by
  funext k
  simp only [fold, Pi.add_apply, map_add]
  split_ifs <;> ring

theorem fold_single (a : ℝ) : fold (Pi.single (0 : ZMod L) (a : ℂ)) = Pi.single 0 (a : ℂ) := by
  funext k
  rcases eq_or_ne k 0 with rfl | hk
  · simp [fold]
  · simp [fold, hk]

theorem conj_fold {C : ZMod L → ℂ} (hreal : ∀ k, starRingEnd ℂ (C k) = C k) (k : ZMod L) :
    starRingEnd ℂ (fold C k) = fold C k := by
  simp only [fold, apply_ite (starRingEnd ℂ), map_mul, map_ofNat, map_zero, hreal]

/-- Folding moves each bin above `L/2` to its mirror bin, so a bin and its mirror still have the sum they had. -/
theorem fold_add_fold_neg [NeZero L] (hL : L % 2 = 0) {C : ZMod L → ℂ} (heven : C.Even) (hreal : ∀ k, starRingEnd ℂ (C k) = C k)
    (k : ZMod L) : fold C k + fold C (-k) = 2 * C k := by
  have hk : k.val < L := k.val_lt
  have hval : (-k).val = if k.val = 0 then 0 else L - k.val := by
    simp only [ZMod.neg_val, ZMod.val_eq_zero]
  simp only [fold, hreal, heven k, hval]
  rcases Nat.eq_zero_or_pos k.val with h0 | hpos
  · simp only [h0, if_true, true_or]
    ring
  rw [if_neg hpos.ne']
  rcases lt_trichotomy k.val (L / 2) with hlt | heq | hgt
  · rw [if_neg (by omega), if_pos hlt, if_neg (by omega), if_neg (by omega), add_zero]
  · rw [if_pos (.inr heq), if_pos (.inr (by omega))]
    ring
  · rw [if_neg (by omega), if_neg (by omega), if_neg (by omega), if_pos (by omega), zero_add]

end Folding

/-! ### Sequences as functions on the residues modulo `L` -/

/-- The first `L` terms of a sequence, by their index modulo `L`. -/
def cyclic {α : Type} (L : ℕ) (x : ℕ → α) (j : ZMod L) : α := x j.val

section Residues

variable {L : ℕ} [NeZero L]

theorem sum_range_eq_sum_residues (f : ℕ → ℂ) : ∑ n ∈ Finset.range L, f n = ∑ j : ZMod L, f j.val := by
  obtain ⟨m, rfl⟩ := Nat.exists_eq_succ_of_ne_zero (NeZero.ne L)
  exact Finset.sum_range f

/-- The kernel `e^(2πi·k·n/L)` of R127. -/
theorem exp_eq_stdAddChar (k n : ℕ) :
    Complex.exp (2 * Real.pi * Complex.I * k * n / L) = ZMod.stdAddChar ((k : ZMod L) * (n : ZMod L)) := by
  have h := ZMod.stdAddChar_coe (N := L) ((k : ℤ) * n)
  push_cast at h
  rw [h, mul_assoc _ (k : ℂ) n]

/-- The kernel `e^(-2πi·k·n/L)` of R129. -/
theorem exp_neg_eq_stdAddChar (k n : ℕ) :
    Complex.exp (-(2 * Real.pi * Complex.I * k * n / L)) = ZMod.stdAddChar (-((n : ZMod L) * (k : ZMod L))) := by
  rw [Complex.exp_neg, exp_eq_stdAddChar, AddChar.map_neg_eq_inv, mul_comm (n : ZMod L)]

/-- R129's transform is the one on the residues modulo `L`. -/
theorem dft_eq (x : ℕ → ℂ) (k : ℕ) : dft L x k = ZMod.dft (cyclic L x) (k : ZMod L) := by
  rw [dft, sum_range_eq_sum_residues, ZMod.dft_apply]
  refine Finset.sum_congr rfl fun j _ => ?_
  rw [exp_neg_eq_stdAddChar, ZMod.natCast_zmod_val, smul_eq_mul, mul_comm, cyclic]

theorem cyclic_dft (x : ℕ → ℂ) : cyclic L (dft L x) = ZMod.dft (cyclic L x) := by
  funext k
  rw [cyclic, dft_eq, ZMod.natCast_zmod_val]

/-! ### The transform of an impulse, of a constant and of a conjugate -/

theorem zmodDft_single (a : ℂ) : ZMod.dft (Pi.single (0 : ZMod L) a) = fun _ => a := by
  funext k
  rw [ZMod.dft_apply, Fintype.sum_eq_single 0 fun j hj => by rw [Pi.single_eq_of_ne hj, smul_zero]]
  simp

theorem zmodDft_const (a : ℂ) : ZMod.dft (fun _ : ZMod L => a) = Pi.single 0 (L * a) := by
  rw [← zmodDft_single, ZMod.dft_dft]
  funext k
  rcases eq_or_ne k 0 with rfl | hk
  · simp
  · rw [Pi.single_eq_of_ne (neg_ne_zero.mpr hk), Pi.single_eq_of_ne hk, smul_zero]

theorem conj_zmodDft (x : ZMod L → ℂ) (k : ZMod L) :
    starRingEnd ℂ (ZMod.dft x k) = ZMod.dft (fun j => starRingEnd ℂ (x j)) (-k) := by
  rw [ZMod.dft_apply, ZMod.dft_apply, map_sum]
  refine Finset.sum_congr rfl fun j _ => ?_
  rw [smul_eq_mul, map_mul, ← AddChar.map_neg_eq_conj, mul_neg, smul_eq_mul]

theorem even_zmodDft {x : ZMod L → ℝ} (hx : x.Even) : Function.Even (ZMod.dft fun j => (x j : ℂ)) :=
  ZMod.dft_even_iff.mpr fun j => by rw [hx j]

/-- The transform of a real even sequence is real (R124). -/
theorem conj_zmodDft_of_even {x : ZMod L → ℝ} (hx : x.Even) (k : ZMod L) :
    starRingEnd ℂ (ZMod.dft (fun j => (x j : ℂ)) k) = ZMod.dft (fun j => (x j : ℂ)) k := by
  simp only [conj_zmodDft, Complex.conj_ofReal]
  exact even_zmodDft hx k

/-! ### The minimum-phase logarithm -/

/-- Steps c and d of a log magnitude (R124, R125). -/
noncomputable def minPhase (x : ZMod L → ℝ) : ZMod L → ℂ := ZMod.dft (fold (ZMod.dft fun j => (x j : ℂ)))

theorem minPhase_add (x y : ZMod L → ℝ) : minPhase (x + y) = minPhase x + minPhase y := by
  have hsum : (fun j => ((x + y) j : ℂ)) = (fun j => (x j : ℂ)) + fun j => (y j : ℂ) := by
    funext j
    simp
  rw [minPhase, hsum, map_add, fold_add, map_add, minPhase, minPhase]

/-- A constant log magnitude has the cepstrum of an impulse (R133). -/
theorem minPhase_const (g : ℝ) : minPhase (fun _ : ZMod L => g) = fun _ => (L * g : ℂ) := by
  have h : (L * g : ℂ) = ((L * g : ℝ) : ℂ) := by push_cast; rfl
  rw [minPhase, zmodDft_const, h, fold_single, zmodDft_single]

/-- The real part of the minimum-phase logarithm is `L` times the log magnitude (R125): a spectrum plus its conjugate is the
transform of the folded cepstrum plus its mirror, which is twice the transform of the cepstrum. -/
theorem minPhase_re (hL : L % 2 = 0) {x : ZMod L → ℝ} (hx : x.Even) (i : ZMod L) : (minPhase x i).re = L * x i := by
  set X : ZMod L → ℂ := fun j => (x j : ℂ)
  have hreal : ∀ k, starRingEnd ℂ (ZMod.dft X k) = ZMod.dft X k := conj_zmodDft_of_even hx
  have heven : (ZMod.dft X).Even := even_zmodDft hx
  have hconj : starRingEnd ℂ (minPhase x i) = ZMod.dft (fun k => fold (ZMod.dft X) (-k)) i := by
    rw [ZMod.dft_comp_neg, minPhase, conj_zmodDft]
    simp only [conj_fold hreal, X]
  have hsum : minPhase x i + starRingEnd ℂ (minPhase x i) = 2 * (L * x i : ℝ) := by
    calc minPhase x i + starRingEnd ℂ (minPhase x i)
        = ZMod.dft (fun k => fold (ZMod.dft X) k + fold (ZMod.dft X) (-k)) i := by
          rw [hconj, minPhase, ← Pi.add_apply, ← map_add]
          rfl
      _ = 2 * ZMod.dft (ZMod.dft X) i := by
          simp only [fold_add_fold_neg hL heven hreal, ZMod.dft_const_mul]
      _ = 2 * (L * x i : ℝ) := by
          simp only [ZMod.dft_dft, X, hx i, smul_eq_mul]
          push_cast
          rfl
  rw [Complex.add_conj] at hsum
  have h2 : 2 * (minPhase x i).re = 2 * (L * x i) := by exact_mod_cast hsum
  linarith

end Residues

end Sys2Proof.SynthRef
end

section
/-! PROOFS. The reference value of Synthesize (spec/40_synthesizer.md R122 to R128). The half-spectrum is the exponential of the
minimum-phase logarithm, so its magnitude is that of the spectrum (O59), and a constant added to the log magnitude is a factor of it, which
steps e to g carry along (O60); a flat spectrum gives an impulse (O58). O57 is the accuracy of the free value, carried to the list of its
samples. -/

namespace Sys2Proof.SynthRef

/-! ### The parameters and the elements -/

theorem toReal_zero : toReal Fp.zero = 0 := by rw [toReal, Fp.scaled_zero, Int.cast_zero, zero_div]

theorem toReal_pos_iff {x : F64} : 0 < toReal x ↔ 0 < Fp.scaled x := by
  rw [toReal, div_pos_iff_of_pos_right Fp.unitsPerOne_pos, Int.cast_pos]

theorem toReal_nonneg_iff {x : F64} : 0 ≤ toReal x ↔ 0 ≤ Fp.scaled x := by
  rw [toReal, le_div_iff₀ Fp.unitsPerOne_pos, zero_mul, Int.cast_nonneg_iff]

theorem element_replicate {n i : ℕ} (a : F64) (h : i < n) : Machine.element (List.replicate n a) i = a := by
  simp [Machine.element, h]

/-- AP is the zero vector (R8). -/
theorem toReal_aperiodicRatio (c : Config) (i : ℕ) : toReal (Machine.element c.aperiodicRatio i) = 0 := by
  have h : Machine.element c.aperiodicRatio i = Fp.zero := by
    rcases lt_or_ge i c.bins with hi | hi
    · exact element_replicate _ hi
    · simp [Machine.element, Config.aperiodicRatio, hi]
  rw [h, toReal_zero]

section WellFormed

variable {c : Config} (hc : c.wf = true)
include hc

theorem neZero_fftSize_of_wf : NeZero c.fftSize := by
  simp only [Config.wf, Bool.and_eq_true, decide_eq_true_eq] at hc
  exact ⟨by omega⟩

theorem fftSize_eq_of_wf : c.fftSize = 2 * c.half := by
  simp only [Config.wf, Bool.and_eq_true, decide_eq_true_eq] at hc
  rw [Config.half]
  omega

theorem eps_pos_of_wf : 0 < toReal c.eps := by
  simp only [Config.wf, Bool.and_eq_true, decide_eq_true_eq] at hc
  obtain ⟨⟨⟨⟨⟨⟨-, hfin⟩, hlt⟩, -⟩, -⟩, -⟩, -⟩ := hc
  rwa [Fp.lt_iff_scaled Fp.finite_zero hfin, Fp.scaled_zero, ← toReal_pos_iff] at hlt

end WellFormed

/-! ### Steps a to d -/

theorem power_nonneg (c : Config) (spec : List F64) (i : ℕ) : 0 ≤ power c spec i := by
  unfold power
  split
  · exact le_rfl
  · exact le_max_right _ _

/-- `u[i]` of R122 with AP zero. -/
theorem power_of_ne_negInf (c : Config) {spec : List F64} {i : ℕ} (h : Machine.element spec i ≠ Fp.negInf) :
    power c spec i = max (toReal (Machine.element spec i)) 0 := by
  rw [power, if_neg h, toReal_aperiodicRatio, sub_zero, mul_one]

/-- The floor of R122 keeps the operand of the logarithm above 0. -/
theorem power_add_eps_pos {c : Config} (hc : c.wf = true) (spec : List F64) (i : ℕ) : 0 < power c spec i + toReal c.eps :=
  add_pos_of_nonneg_of_pos (power_nonneg c spec i) (eps_pos_of_wf hc)

theorem exp_logHalf {c : Config} (hc : c.wf = true) (spec : List F64) (i : ℕ) :
    Real.exp (logHalf c spec i) = Real.sqrt (power c spec i + toReal c.eps) := by
  rw [logHalf, Real.exp_half, Real.exp_log (power_add_eps_pos hc spec i)]

/-- The mirror of R123, in one expression. -/
theorem logFull_eq {c : Config} (hL : c.fftSize = 2 * c.half) (spec : List F64) (n : ℕ) :
    logFull c spec n = logHalf c spec (min n (c.fftSize - n)) := by
  unfold logFull
  split
  · rw [min_eq_left (by omega)]
  · rw [min_eq_right (by omega)]

/-- The mirrored sequence is even (R123). -/
theorem cyclic_logFull_even {c : Config} [NeZero c.fftSize] (hL : c.fftSize = 2 * c.half) (spec : List F64) :
    (cyclic c.fftSize (logFull c spec)).Even := by
  intro j
  have hj : j.val < c.fftSize := j.val_lt
  rcases eq_or_ne j 0 with rfl | h0
  · rw [neg_zero]
  have := NeZero.mk h0
  simp only [cyclic, ZMod.val_neg_of_ne_zero, logFull_eq hL]
  congr 1
  omega

/-- Steps c and d on the residues modulo `L`. -/
theorem minPhaseLog_eq (c : Config) [NeZero c.fftSize] (spec : List F64) (i : ℕ) :
    minPhaseLog c spec i = minPhase (cyclic c.fftSize (logFull c spec)) (i : ZMod c.fftSize) := by
  have hfold : cyclic c.fftSize (folded c spec) = fold (cyclic c.fftSize (cepstrum c spec)) := rfl
  rw [minPhaseLog, dft_eq, hfold, cepstrum, cyclic_dft]
  rfl

/-- The half-spectrum is the exponential of the minimum-phase logarithm over `L` (R125). -/
theorem halfSpectrum_eq (c : Config) (spec : List F64) (i : ℕ) :
    halfSpectrum c spec i = Complex.exp (minPhaseLog c spec i / c.fftSize) := by
  rw [Complex.exp_eq_exp_re_mul_sin_add_cos, Complex.div_natCast_re, Complex.div_natCast_im, halfSpectrum]
  push_cast
  ring

theorem minPhaseLog_re {c : Config} (hc : c.wf = true) (spec : List F64) {i : ℕ} (hi : i ≤ c.half) :
    (minPhaseLog c spec i).re = c.fftSize * logHalf c spec i := by
  have := neZero_fftSize_of_wf hc
  have hL := fftSize_eq_of_wf hc
  have hpos := NeZero.pos c.fftSize
  rw [minPhaseLog_eq, minPhase_re (by omega) (cyclic_logFull_even hL spec), cyclic, ZMod.val_natCast_of_lt (by omega), logFull,
    if_pos hi]

/-- Settles O59: the magnitude is the exponential of the real part, which is the log magnitude. -/
theorem minimumPhaseKeepsMagnitude : Obligations.MinimumPhaseKeepsMagnitude := by
  intro c spec i hc hi
  have := neZero_fftSize_of_wf hc
  have hL : (c.fftSize : ℝ) ≠ 0 := NeZero.ne _
  rw [halfSpectrum_eq, Complex.norm_exp, Complex.div_natCast_re, minPhaseLog_re hc spec hi, mul_div_cancel_left₀ _ hL,
    exp_logHalf hc]

/-! ### Steps e to g of a scaled half-spectrum -/

section Scaling

variable {c : Config} {eps' : F64} {spec spec' : List F64} {β : ℝ}
  (h : ∀ i, halfSpectrum { c with eps := eps' } spec' i = β * halfSpectrum c spec i) (f0 shift : F64)
include h

theorem shifted_scaled (i : ℕ) : shifted { c with eps := eps' } spec' shift i = β * shifted c spec shift i := by
  apply Complex.ext <;> simp only [shifted, h, Complex.re_ofReal_mul, Complex.im_ofReal_mul] <;> ring

theorem fullSpectrum_scaled (k : ℕ) :
    fullSpectrum { c with eps := eps' } spec' shift k = β * fullSpectrum c spec shift k := by
  simp only [fullSpectrum, shifted_scaled h, map_mul, Complex.conj_ofReal, mul_ite]
  rfl

theorem timeSignal_scaled (n : ℕ) : timeSignal { c with eps := eps' } spec' shift n = β * timeSignal c spec shift n := by
  simp only [timeSignal, fullSpectrum_scaled h, mul_assoc (β : ℂ), ← Finset.mul_sum, Complex.re_ofReal_mul]

theorem synthRef_scaled (n : ℕ) :
    synthRef { c with eps := eps' } spec' f0 shift n = β * synthRef c spec f0 shift n := by
  have hcentred : centred { c with eps := eps' } spec' shift n = β * centred c spec shift n := timeSignal_scaled h shift _
  simp only [synthRef, hcentred]
  ring

end Scaling

/-! ### Energy scaling -/

/-- One element of a spectrum scaled by `α`; -infinity stays (R122, R134). -/
def ScaledBy (α : ℝ) (x y : F64) : Prop :=
  (x = Fp.negInf ∧ y = Fp.negInf)
    ∨ (Fp.finite x = true ∧ Fp.finite y = true ∧ toReal y = α * toReal x)

theorem ne_negInf_of_finite {x : F64} (h : Fp.finite x = true) : x ≠ Fp.negInf := by
  rintro rfl
  exact absurd h (by decide)

section EnergyScaling

variable {c : Config} {eps' : F64} {spec spec' : List F64} {α : ℝ}

theorem power_scaled (hα : 0 < α) {i : ℕ} (h : ScaledBy α (Machine.element spec i) (Machine.element spec' i)) :
    power { c with eps := eps' } spec' i = α * power c spec i := by
  rcases h with ⟨hx, hy⟩ | ⟨hx, hy, heq⟩
  · rw [power, power, if_pos hx, if_pos hy, mul_zero]
  · rw [power_of_ne_negInf _ (ne_negInf_of_finite hx), power_of_ne_negInf _ (ne_negInf_of_finite hy), heq,
      mul_max_of_nonneg _ _ hα.le, mul_zero]

theorem logHalf_scaled (hc : c.wf = true) (hα : 0 < α) (heps : toReal eps' = α * toReal c.eps) {i : ℕ}
    (h : ScaledBy α (Machine.element spec i) (Machine.element spec' i)) :
    logHalf { c with eps := eps' } spec' i = logHalf c spec i + Real.log α / 2 := by
  rw [logHalf, power_scaled hα h, heps, ← mul_add, Real.log_mul hα.ne' (power_add_eps_pos hc spec i).ne', logHalf]
  ring

/-- A constant added to the log magnitude is a factor of the half-spectrum (R134). -/
theorem halfSpectrum_scaled [NeZero c.fftSize] {g : ℝ}
    (hlog : ∀ n < c.fftSize, logFull { c with eps := eps' } spec' n = logFull c spec n + g) (i : ℕ) :
    halfSpectrum { c with eps := eps' } spec' i = Real.exp g * halfSpectrum c spec i := by
  have hL : (c.fftSize : ℂ) ≠ 0 := NeZero.ne _
  have hcyc : cyclic c.fftSize (logFull { c with eps := eps' } spec') = cyclic c.fftSize (logFull c spec) + fun _ => g :=
    funext fun j => hlog j.val j.val_lt
  have hmin : minPhaseLog { c with eps := eps' } spec' i = minPhaseLog c spec i + c.fftSize * g := by
    rw [minPhaseLog_eq c, minPhaseLog_eq { c with eps := eps' }, hcyc, minPhase_add, minPhase_const]
    rfl
  rw [halfSpectrum_eq, halfSpectrum_eq, hmin, add_div, mul_div_cancel_left₀ _ hL, Complex.exp_add, Complex.ofReal_exp, mul_comm]

end EnergyScaling

/-- Settles O60: the log magnitude gains `ln(α) / 2`, so the half-spectrum gains the factor `√α`. -/
theorem energyScaling : Obligations.EnergyScaling := by
  intro c spec spec' eps' f0 shift α hc hα _ heps _ _ hspec n _
  have := neZero_fftSize_of_wf hc
  have hL := fftSize_eq_of_wf hc
  have hlog : ∀ m < c.fftSize, logFull { c with eps := eps' } spec' m = logFull c spec m + Real.log α / 2 := by
    intro m hm
    have hbin : min m (c.fftSize - m) < c.bins := by
      rw [Config.bins]
      omega
    rw [logFull_eq hL, logFull_eq (c := { c with eps := eps' }) hL]
    exact logHalf_scaled hc hα heps (hspec _ hbin)
  have hroot : Real.exp (Real.log α / 2) = Real.sqrt α := by rw [Real.exp_half, Real.exp_log hα]
  exact synthRef_scaled (fun i => by rw [halfSpectrum_scaled hlog, hroot]) f0 shift n

/-! ### Flat spectra -/

/-- With no shift step e changes nothing (R126). -/
theorem shifted_zero (c : Config) (spec : List F64) (i : ℕ) : shifted c spec Fp.zero i = halfSpectrum c spec i := by
  simp [shifted, toReal_zero]

/-- A constant log magnitude gives a constant half-spectrum (R133). -/
theorem halfSpectrum_const {c : Config} [NeZero c.fftSize] {spec : List F64} {g : ℝ}
    (hlog : ∀ n < c.fftSize, logFull c spec n = g) (i : ℕ) : halfSpectrum c spec i = Real.exp g := by
  have hL : (c.fftSize : ℂ) ≠ 0 := NeZero.ne _
  have hcyc : cyclic c.fftSize (logFull c spec) = fun _ => g := funext fun j => hlog j.val j.val_lt
  rw [halfSpectrum_eq, minPhaseLog_eq, hcyc, minPhase_const, mul_div_cancel_left₀ _ hL, Complex.ofReal_exp]

/-- The inverse transform of a constant real spectrum is an impulse at 0 (R133). -/
theorem timeSignal_const {c : Config} [NeZero c.fftSize] {spec : List F64} {shift : F64} {s : ℝ}
    (hfull : ∀ k, fullSpectrum c spec shift k = s) {n : ℕ} (hn : n < c.fftSize) :
    timeSignal c spec shift n = if n = 0 then c.fftSize * s else 0 := by
  have hdft : ∑ j : ZMod c.fftSize, (s : ℂ) * ZMod.stdAddChar (j * (n : ZMod c.fftSize))
      = ZMod.dft (fun _ : ZMod c.fftSize => (s : ℂ)) (-(n : ZMod c.fftSize)) := by
    simp only [ZMod.dft_apply, mul_neg, neg_neg, smul_eq_mul, mul_comm]
  have hzero : -(n : ZMod c.fftSize) = 0 ↔ n = 0 := by
    rw [neg_eq_zero, ZMod.natCast_eq_zero_iff]
    exact ⟨fun h => Nat.eq_zero_of_dvd_of_lt h hn, fun h => h ▸ dvd_zero _⟩
  simp only [timeSignal, hfull, exp_eq_stdAddChar]
  rw [sum_range_eq_sum_residues]
  simp only [ZMod.natCast_zmod_val, hdft, zmodDft_const, Pi.single_apply, hzero]
  split
  · exact_mod_cast Complex.ofReal_re (c.fftSize * s)
  · rfl

/-- The samples of a constant real spectrum: the impulse stands at `H` after the shift of step f, with `FS / f0`'s root (R127, R128). -/
theorem synthRef_const {c : Config} (hc : c.wf = true) {spec : List F64} {shift : F64} {s : ℝ}
    (hfull : ∀ k, fullSpectrum c spec shift k = s) (f0 : F64) {n : ℕ} (hn : n < c.fftSize) :
    synthRef c spec f0 shift n = if n = c.half then s * Real.sqrt (c.sampleRate / toReal f0) else 0 := by
  have := neZero_fftSize_of_wf hc
  have hL := fftSize_eq_of_wf hc
  have hne : (c.fftSize : ℝ) ≠ 0 := NeZero.ne _
  have hat : (n + c.half) % c.fftSize = 0 ↔ n = c.half := by
    rcases lt_or_ge (n + c.half) c.fftSize with hlt | hge
    · rw [Nat.mod_eq_of_lt hlt]
      omega
    · rw [Nat.mod_eq_sub_mod hge, Nat.mod_eq_of_lt (by omega)]
      omega
  rw [synthRef, centred, timeSignal_const hfull (Nat.mod_lt _ (NeZero.pos _))]
  simp only [hat]
  split
  · field_simp
  · rw [zero_mul, zero_div]

section Flat

variable {c : Config} {a : F64} (ha : Fp.finite a = true) (ha0 : 0 ≤ toReal a)
include ha ha0

theorem power_replicate {i : ℕ} (hi : i < c.bins) : power c (List.replicate c.bins a) i = toReal a := by
  have helem := element_replicate a hi
  rw [power_of_ne_negInf c (by rw [helem]; exact ne_negInf_of_finite ha), helem, max_eq_left ha0]

theorem halfSpectrum_replicate (hc : c.wf = true) (i : ℕ) :
    halfSpectrum c (List.replicate c.bins a) i = Real.sqrt (toReal a + toReal c.eps) := by
  have := neZero_fftSize_of_wf hc
  have hL := fftSize_eq_of_wf hc
  have hpower {j : ℕ} (hj : j ≤ c.half) := power_replicate (c := c) ha ha0 (Nat.lt_succ_of_le hj)
  have hlog : ∀ m < c.fftSize, logFull c (List.replicate c.bins a) m = logHalf c (List.replicate c.bins a) 0 := by
    intro m hm
    rw [logFull_eq hL, logHalf, logHalf, hpower (by omega), hpower (Nat.zero_le _)]
  rw [halfSpectrum_const hlog, exp_logHalf hc, hpower (Nat.zero_le _)]

end Flat

/-- Settles O58: every bin of the full spectrum of a flat spectrum is `√(a + ε)`, so its samples are an impulse. -/
theorem flatSpectrumReference : Obligations.FlatSpectrumReference := by
  rintro c spec f0 a hc _ ha hle rfl n hn
  have ha0 : 0 ≤ toReal a := by
    rwa [Fp.le_iff_scaled Fp.finite_zero ha, Fp.scaled_zero, ← toReal_nonneg_iff] at hle
  have hfull : ∀ k, fullSpectrum c (List.replicate c.bins a) Fp.zero k = Real.sqrt (toReal a + toReal c.eps) := by
    intro k
    simp only [fullSpectrum, shifted_zero, halfSpectrum_replicate ha ha0 hc, Complex.conj_ofReal, ite_self]
  exact synthRef_const hc hfull f0 hn

/-! ### The synthesized result -/

theorem length_synthesize (c : Config) (spec : List F64) (f0 shift : F64) :
    (Machine.synthesize c spec f0 shift).length = c.fftSize := by
  rw [Machine.synthesize, List.length_map, List.length_range]

theorem element_synthesize (c : Config) (spec : List F64) (f0 shift : F64) {n : ℕ} (hn : n < c.fftSize) :
    Machine.element (Machine.synthesize c spec f0 shift) n = synthSample c spec f0 shift n := by
  simp [Machine.element, Machine.synthesize, hn]

/-- SYNTH_TOL is a tolerance that the samples meet (R9, R131). -/
theorem synthTol_spec : 0 ≤ synthTol ∧ SynthAccurate synthTol synthSample :=
  (@synthUnit ⟨silentUnit⟩).accurate.choose_spec

/-- Settles O57: the list's elements are the samples of `synth_impl`, which has SynthAccurate. -/
theorem synthesisIsAccurate : Obligations.SynthesisIsAccurate := by
  obtain ⟨hnonneg, haccurate⟩ := synthTol_spec
  refine ⟨length_synthesize, hnonneg, fun c spec f0 shift hv hlow hhigh n hn => ?_⟩
  simp only [element_synthesize c spec f0 shift hn]
  exact haccurate c spec f0 shift hv hlow hhigh n hn

end Sys2Proof.SynthRef
end

section
/-! PROOFS. The power of ten (spec/41_smoother.md R162): the comparison of natural numbers in `pow10Sides` is that of a magnitude with
`10^x`, so the search ends at the greatest finite magnitude that is at most `10^x`, and the two results R162 allows follow from it. -/

namespace Sys2Proof.Fp

/-! ### The value of a magnitude -/

/-- The real number that a finite magnitude stands for. -/
noncomputable def magReal (m : ℕ) : ℝ := unitsOfMag m / unitsPerOne

theorem magReal_strictMono : StrictMono magReal := fun a b h => by
  rw [magReal, magReal, div_lt_div_iff_of_pos_right unitsPerOne_pos]
  exact_mod_cast unitsOfMag_strictMono h

theorem magReal_zero : magReal 0 = 0 := by rw [magReal, show unitsOfMag 0 = 0 from rfl, Nat.cast_zero, zero_div]

theorem magReal_nonneg (m : ℕ) : 0 ≤ magReal m := by rw [← magReal_zero]; exact magReal_strictMono.monotone m.zero_le

/-- A value is its sign times the value of its magnitude. -/
theorem toReal_eq_magReal (x : F64) : SynthRef.toReal x = signUnit (sign x) * magReal (mag x) := by
  rw [toReal_eq, magReal, units, mul_div_assoc]

theorem toReal_pack_false {m : ℕ} (h : m < 2 ^ 63) : SynthRef.toReal (pack false m) = magReal m := by
  rw [toReal_eq_magReal, sign_pack h, mag_pack h, signUnit_false, Int.cast_one, one_mul]

theorem toReal_le_magReal (x : F64) : SynthRef.toReal x ≤ magReal (mag x) := by
  have h := magReal_nonneg (mag x)
  rw [toReal_eq_magReal]
  cases sign x with
  | false => simp [signUnit_false]
  | true => simpa [signUnit_true] using h

theorem toReal_of_pos {x : F64} (h : 0 < SynthRef.toReal x) : SynthRef.toReal x = magReal (mag x) := by
  rw [toReal_eq_magReal] at h ⊢
  cases hs : sign x with
  | false => simp [signUnit_false]
  | true =>
    rw [hs, signUnit_true, Int.cast_neg, Int.cast_one, neg_one_mul] at h
    exact absurd (magReal_nonneg (mag x)) (by linarith)

theorem finite_pack_false {m : ℕ} (h : m < infMag) : finite (pack false m) = true :=
  decide_eq_true (by rwa [mag_pack (h.trans infMag_lt)])

/-- The least normal magnitude stands for `2^-1022`. -/
theorem magReal_two_pow_52 : magReal (2 ^ 52) = (2 : ℝ) ^ (-1022 : ℤ) := by
  have hunits : unitsOfMag (2 ^ 52) = 2 ^ 52 := by decide
  have hscale : (2 : ℝ) ^ 1074 = 2 ^ 52 * 2 ^ 1022 := two_pow_add rfl
  rw [magReal, hunits, unitsPerOne_cast, hscale, zpow_neg, Nat.cast_pow, Nat.cast_ofNat, div_mul_eq_div_div, div_self (by positivity),
    one_div]
  rfl

end Sys2Proof.Fp

namespace Sys2Proof.Machine

/-! ### The search -/

/-- The search ends at the greatest number that a downward-closed test accepts. -/
theorem greatestAdmitted_isGreatest {test : ℕ → Bool} (hdown : ∀ a b, a ≤ b → test b = true → test a = true) (n acc : ℕ)
    (hacc : test acc = true) (hlimit : test (acc + 2 ^ n) = false) :
    IsGreatest {m | test m = true} (greatestAdmitted test n acc) := by
  induction n generalizing acc with
  | zero =>
    refine ⟨hacc, fun m hm => ?_⟩
    by_contra hgt
    have hnext := hdown (acc + 1) m (not_le.mp hgt) hm
    rw [pow_zero, hnext] at hlimit
    cases hlimit
  | succ n ih =>
    rw [greatestAdmitted]
    split
    case isTrue hbit => exact ih _ hbit (by rwa [add_assoc, ← two_mul, ← pow_succ'])
    case isFalse hbit => exact ih _ hacc (Bool.not_eq_true _ ▸ hbit)

/-! ### Comparing a magnitude with the power -/

/-- The exponent `k / 2^1074`, as the fraction that `pow10Sides` reduces it to. -/
theorem natAbs_div_unitsPerOne (k : ℤ) :
    let g := Nat.gcd k.natAbs Fp.unitsPerOne
    Fp.unitsPerOne / g ≠ 0 ∧ (k.natAbs : ℝ) / Fp.unitsPerOne = (k.natAbs / g : ℕ) / (Fp.unitsPerOne / g : ℕ) := by
  intro g
  have hg : 0 < g := Nat.gcd_pos_of_pos_right _ Fp.zero_lt_unitsPerOne
  have hgR : (g : ℝ) ≠ 0 := Nat.cast_ne_zero.mpr hg.ne'
  have hU : g ∣ Fp.unitsPerOne := Nat.gcd_dvd_right _ _
  refine ⟨(Nat.div_pos (Nat.le_of_dvd Fp.zero_lt_unitsPerOne hU) hg).ne', ?_⟩
  rw [Nat.cast_div (Nat.gcd_dvd_left _ _) hgR, Nat.cast_div hU hgR, div_div_div_cancel_right₀ hgR]

/-- The two sides are in the ratio of the same power of the two numbers compared. -/
theorem pow10Sides_eq (u : ℕ) (k : ℤ) :
    ∃ q ≠ 0, ∃ c > (0 : ℝ), ((pow10Sides u k).1 : ℝ) = c * ((u : ℝ) / Fp.unitsPerOne) ^ q
      ∧ ((pow10Sides u k).2 : ℝ) = c * ((10 : ℝ) ^ ((k : ℝ) / Fp.unitsPerOne)) ^ q := by
  obtain ⟨hq, hfraction⟩ := natAbs_div_unitsPerOne k
  have hU := Fp.unitsPerOne_pos
  have hpower : ((10 : ℝ) ^ ((k.natAbs : ℝ) / Fp.unitsPerOne)) ^ (Fp.unitsPerOne / Nat.gcd k.natAbs Fp.unitsPerOne)
      = 10 ^ (k.natAbs / Nat.gcd k.natAbs Fp.unitsPerOne) := by
    rw [hfraction, ← Real.rpow_mul_natCast (by norm_num), div_mul_cancel₀ _ (Nat.cast_ne_zero.mpr hq), Real.rpow_natCast]
  refine ⟨_, hq, ?_⟩
  rw [pow10Sides]
  generalize Nat.gcd k.natAbs Fp.unitsPerOne = g at *
  generalize Fp.unitsPerOne / g = q at *
  generalize k.natAbs / g = p at *
  generalize Fp.unitsPerOne = U at *
  split
  case isTrue hk =>
    have habs : (k : ℝ) = k.natAbs := by rw [← Int.cast_natCast, Int.natAbs_of_nonneg hk]
    refine ⟨(U : ℝ) ^ q, by positivity, ?_, ?_⟩
    · rw [div_pow, mul_div_cancel₀ _ (by positivity), Nat.cast_pow]
    · rw [habs, hpower]
      push_cast
      ring
  case isFalse hk =>
    have habs : (k : ℝ) = -(k.natAbs : ℝ) := by
      rw [← Int.cast_natCast, ← Int.cast_neg, Int.ofNat_natAbs_of_nonpos (not_le.mp hk).le, neg_neg]
    refine ⟨(U : ℝ) ^ q * 10 ^ p, by positivity, ?_, ?_⟩
    · rw [div_pow, mul_right_comm, mul_div_cancel₀ _ (by positivity)]
      push_cast
      ring
    · rw [habs, neg_div, Real.rpow_neg (by norm_num), inv_pow, hpower, mul_inv_cancel_right₀ (by positivity), Nat.cast_pow]

/-- The sides compare as the value of the magnitude and the power do. -/
theorem pow10Sides_compare (m : ℕ) (k : ℤ) :
    ((pow10Sides (Fp.unitsOfMag m) k).1 ≤ (pow10Sides (Fp.unitsOfMag m) k).2
        ↔ Fp.magReal m ≤ (10 : ℝ) ^ ((k : ℝ) / Fp.unitsPerOne))
      ∧ ((pow10Sides (Fp.unitsOfMag m) k).1 = (pow10Sides (Fp.unitsOfMag m) k).2
        ↔ Fp.magReal m = (10 : ℝ) ^ ((k : ℝ) / Fp.unitsPerOne)) := by
  obtain ⟨q, hq, c, hc, hleft, hright⟩ := pow10Sides_eq (Fp.unitsOfMag m) k
  have hm : (0 : ℝ) ≤ Fp.unitsOfMag m / Fp.unitsPerOne := Fp.magReal_nonneg m
  have hr : (0 : ℝ) ≤ (10 : ℝ) ^ ((k : ℝ) / Fp.unitsPerOne) := by positivity
  rw [← Nat.cast_le (α := ℝ), ← Nat.cast_inj (R := ℝ), hleft, hright, mul_le_mul_iff_right₀ hc, mul_right_inj' hc.ne',
    pow_le_pow_iff_left₀ hm hr hq, pow_left_inj₀ hm hr hq, Fp.magReal]
  exact ⟨Iff.rfl, Iff.rfl⟩

theorem atMostPow10_iff {m : ℕ} {k : ℤ} :
    atMostPow10 m k = true ↔ m < Fp.infMag ∧ Fp.magReal m ≤ (10 : ℝ) ^ ((k : ℝ) / Fp.unitsPerOne) := by
  rw [atMostPow10, Bool.and_eq_true, decide_eq_true_eq, decide_eq_true_eq, (pow10Sides_compare m k).1]

theorem isPow10_iff {m : ℕ} {k : ℤ} : isPow10 m k = true ↔ Fp.magReal m = (10 : ℝ) ^ ((k : ℝ) / Fp.unitsPerOne) := by
  rw [isPow10, decide_eq_true_eq, (pow10Sides_compare m k).2]

/-- `F` is the greatest finite magnitude whose value is at most `r`. -/
def IsFloorMag (r : ℝ) (F : ℕ) : Prop := IsGreatest {m | m < Fp.infMag ∧ Fp.magReal m ≤ r} F

theorem isFloorMag_pow10Floor (k : ℤ) : IsFloorMag ((10 : ℝ) ^ ((k : ℝ) / Fp.unitsPerOne)) (pow10Floor k) := by
  have h := greatestAdmitted_isGreatest (test := fun m => atMostPow10 m k) ?down 63 0 ?zero ?limit
  case down =>
    intro a b hab hb
    obtain ⟨hlt, hle⟩ := atMostPow10_iff.mp hb
    exact atMostPow10_iff.mpr ⟨hab.trans_lt hlt, (Fp.magReal_strictMono.monotone hab).trans hle⟩
  case zero => exact atMostPow10_iff.mpr ⟨by decide, by rw [Fp.magReal_zero]; positivity⟩
  case limit =>
    rw [← Bool.not_eq_true, atMostPow10_iff, zero_add]
    exact fun h => absurd h.1 Fp.infMag_lt.not_gt
  simp only [atMostPow10_iff] at h
  exact h

/-! ### The floor's neighbours -/

section Neighbours

variable {r : ℝ} {F : ℕ} {w : F64}

/-- A finite magnitude above the floor stands for more than `r`. -/
theorem IsFloorMag.lt_magReal (hF : IsFloorMag r F) {m : ℕ} (hm : m < Fp.infMag) (h : F < m) : r < Fp.magReal m := by
  by_contra hle
  exact absurd (hF.2 ⟨hm, not_lt.mp hle⟩) h.not_ge

/-- No finite value at most `r` is above the floor's. -/
theorem IsFloorMag.toReal_le (hF : IsFloorMag r F) (hw : Fp.finite w = true) (h : SynthRef.toReal w ≤ r) :
    SynthRef.toReal w ≤ Fp.magReal F := by
  rcases le_or_gt (SynthRef.toReal w) 0 with hneg | hpos
  · exact hneg.trans (Fp.magReal_nonneg F)
  · rw [Fp.toReal_of_pos hpos] at h ⊢
    exact Fp.magReal_strictMono.monotone (hF.2 ⟨of_decide_eq_true hw, h⟩)

/-- Where the floor is not `r` itself, a finite value not below `r` has a greater magnitude. -/
theorem lt_mag_of_le_toReal (hlt : Fp.magReal F < r) (h : r ≤ SynthRef.toReal w) : F < Fp.mag w :=
  Fp.magReal_strictMono.lt_iff_lt.mp (hlt.trans_le (h.trans (Fp.toReal_le_magReal w)))

theorem IsFloorMag.finite (hF : IsFloorMag r F) : F < Fp.infMag := hF.1.1

theorem IsFloorMag.magReal_le (hF : IsFloorMag r F) : Fp.magReal F ≤ r := hF.1.2

/-- Below the least normal F64, so is the floor. -/
theorem IsFloorMag.lt_of_subnormal (hF : IsFloorMag r F) (h : r < (2 : ℝ) ^ (-1022 : ℤ)) : F < 2 ^ 52 := by
  rw [← Fp.magReal_two_pow_52] at h
  exact Fp.magReal_strictMono.lt_iff_lt.mp (hF.magReal_le.trans_lt h)

end Neighbours

section Accurate

variable {x : F64} {F : ℕ}

/-- Past the largest finite F64, +infinity is the result. -/
theorem accurate_posInf (hF : IsFloorMag ((10 : ℝ) ^ SynthRef.toReal x) F) (hlt : Fp.magReal F < (10 : ℝ) ^ SynthRef.toReal x)
    (htop : F + 1 = Fp.infMag) : SynthRef.Pow10AccurateAt x Fp.posInf := by
  have hbelow : ∀ w, Fp.finite w = true → SynthRef.toReal w < (10 : ℝ) ^ SynthRef.toReal x := fun w hw => by
    by_contra hle
    have hmag := lt_mag_of_le_toReal hlt (not_lt.mp hle)
    have hfin : Fp.mag w < Fp.infMag := of_decide_eq_true hw
    omega
  refine ⟨fun _ => rfl, fun ⟨w, hw, hle⟩ => absurd hle (hbelow w hw).not_ge, fun w hw heq => absurd heq (hbelow w hw).ne,
    fun hsub => ?_⟩
  have hlarge : 2 ^ 52 + 1 < Fp.infMag := by decide
  have := hF.lt_of_subnormal hsub
  omega

/-- The floor is a result wherever it is the power or is not the last finite magnitude. -/
theorem accurate_floor (hF : IsFloorMag ((10 : ℝ) ^ SynthRef.toReal x) F)
    (h : Fp.magReal F = (10 : ℝ) ^ SynthRef.toReal x ∨ F + 1 ≠ Fp.infMag) :
    SynthRef.Pow10AccurateAt x (Fp.pack false F) := by
  have hvalue := Fp.toReal_pack_false (hF.finite.trans Fp.infMag_lt)
  refine ⟨fun hbelow => ?_, fun _ => ⟨Fp.finite_pack_false hF.finite, Fp.sign_pack (hF.finite.trans Fp.infMag_lt), .inl ?_⟩,
    fun w hw heq => ?_, fun hsub => ?_⟩
  · rcases h with heq | hnext
    · have := hbelow _ (Fp.finite_pack_false hF.finite)
      rw [hvalue, heq] at this
      exact absurd this (lt_irrefl _)
    · have hnext' : F + 1 < Fp.infMag := lt_of_le_of_ne hF.finite hnext
      have := hbelow _ (Fp.finite_pack_false hnext')
      rw [Fp.toReal_pack_false (hnext'.trans Fp.infMag_lt)] at this
      exact absurd this (hF.lt_magReal hnext' F.lt_succ_self).not_gt
  · rw [hvalue]
    exact ⟨hF.magReal_le, fun w hw hle => hF.toReal_le hw hle⟩
  · rw [hvalue]
    exact le_antisymm hF.magReal_le (heq ▸ hF.toReal_le hw heq.le)
  · rw [hvalue]
    exact hF.magReal_le.trans_lt hsub

/-- The finite magnitude above the floor is a result where the floor is not the power, unless it is the least normal one. -/
theorem accurate_succ_floor (hF : IsFloorMag ((10 : ℝ) ^ SynthRef.toReal x) F)
    (hlt : Fp.magReal F < (10 : ℝ) ^ SynthRef.toReal x) (hfin : F + 1 < Fp.infMag) (hnormal : F + 1 ≠ 2 ^ 52) :
    SynthRef.Pow10AccurateAt x (Fp.pack false (F + 1)) := by
  have hvalue := Fp.toReal_pack_false (hfin.trans Fp.infMag_lt)
  have habove := hF.lt_magReal hfin F.lt_succ_self
  have hmag {w : F64} (hle : (10 : ℝ) ^ SynthRef.toReal x ≤ SynthRef.toReal w) :
      F < Fp.mag w ∧ SynthRef.toReal w = Fp.magReal (Fp.mag w) :=
    ⟨lt_mag_of_le_toReal hlt hle, Fp.toReal_of_pos (hle.trans_lt' (by positivity))⟩
  refine ⟨fun hbelow => ?_, fun _ => ⟨Fp.finite_pack_false hfin, Fp.sign_pack (hfin.trans Fp.infMag_lt), .inr ?_⟩,
    fun w hw heq => ?_, fun hsub => ?_⟩
  · have := hbelow _ (Fp.finite_pack_false hfin)
    rw [hvalue] at this
    exact absurd this habove.not_gt
  · rw [hvalue]
    refine ⟨habove.le, fun w hw hle => ?_⟩
    rw [(hmag hle).2]
    exact Fp.magReal_strictMono.monotone (hmag hle).1
  · obtain ⟨hgt, hw'⟩ := hmag heq.ge
    exact absurd (hw'.symm.trans heq) (hF.lt_magReal (of_decide_eq_true hw) hgt).ne'
  · have := hF.lt_of_subnormal hsub
    rw [hvalue, ← Fp.magReal_two_pow_52]
    exact Fp.magReal_strictMono (by omega)

end Accurate

/-! ### The two results -/

theorem pack_infMag : Fp.pack false Fp.infMag = Fp.posInf := by decide

theorem magReal_pow10Floor_lt {k : ℤ} (h : isPow10 (pow10Floor k) k = false) :
    Fp.magReal (pow10Floor k) < (10 : ℝ) ^ ((k : ℝ) / Fp.unitsPerOne) :=
  lt_of_le_of_ne (isFloorMag_pow10Floor k).magReal_le fun heq => by rw [isPow10_iff.mpr heq] at h; cases h

/-- The lower of the two results has the property. -/
theorem accurate_pow10Lower (x : F64) : SynthRef.Pow10AccurateAt x (Fp.pack false (pow10Lower (Fp.scaled x))) := by
  have hF := isFloorMag_pow10Floor (Fp.scaled x)
  rw [pow10Lower]
  split
  case isTrue h =>
    rw [pack_infMag]
    exact accurate_posInf hF (magReal_pow10Floor_lt h.2) h.1
  case isFalse h =>
    refine accurate_floor hF ?_
    rcases Bool.eq_false_or_eq_true (isPow10 (pow10Floor (Fp.scaled x)) (Fp.scaled x)) with hexact | hexact
    · exact .inl (isPow10_iff.mp hexact)
    · exact .inr fun htop => h ⟨htop, hexact⟩

/-- The upper of the two results has the property. -/
theorem accurate_pow10Upper (x : F64) : SynthRef.Pow10AccurateAt x (Fp.pack false (pow10Upper (Fp.scaled x))) := by
  have hF := isFloorMag_pow10Floor (Fp.scaled x)
  rw [pow10Upper]
  split
  case isTrue h =>
    have hlarge : 2 ^ 52 ≠ Fp.infMag := by decide
    exact accurate_floor hF (h.imp isPow10_iff.mp fun hnormal htop => hlarge (hnormal.symm.trans htop))
  case isFalse h =>
    obtain ⟨hexact, hnormal⟩ := not_or.mp h
    have hlt := magReal_pow10Floor_lt (Bool.not_eq_true _ ▸ hexact)
    rcases Nat.lt_or_ge (pow10Floor (Fp.scaled x) + 1) Fp.infMag with hfin | htop
    · exact accurate_succ_floor hF hlt hfin hnormal
    · have heq : pow10Floor (Fp.scaled x) + 1 = Fp.infMag := le_antisymm hF.finite htop
      rw [heq, pack_infMag]
      exact accurate_posInf hF hlt heq

/-! ### The shortcuts of `pow10` -/

/-- From 309 on, the power exceeds the largest finite F64. -/
theorem pow10Lower_of_ge {k : ℤ} (hk : 309 * (Fp.unitsPerOne : ℤ) ≤ k) : pow10Lower k = Fp.infMag := by
  have hU := Fp.unitsPerOne_pos
  have hkR : (309 : ℝ) ≤ k / Fp.unitsPerOne := (le_div_iff₀ hU).mpr (by exact_mod_cast hk)
  have hpower : (10 : ℝ) ^ 309 ≤ 10 ^ ((k : ℝ) / Fp.unitsPerOne) := by
    rw [← Real.rpow_natCast]
    exact Real.rpow_le_rpow_of_exponent_le (by norm_num) (by exact_mod_cast hkR)
  have hmax : Fp.magReal Fp.infMag < 10 ^ 309 := by
    have h : Fp.unitsOfMag Fp.infMag < 10 ^ 309 * Fp.unitsPerOne := by decide +kernel
    rw [Fp.magReal, div_lt_iff₀ hU]
    exact_mod_cast h
  have hF := isFloorMag_pow10Floor k
  have hlt : ∀ m ≤ Fp.infMag, Fp.magReal m < 10 ^ ((k : ℝ) / Fp.unitsPerOne) := fun m hm =>
    (Fp.magReal_strictMono.monotone hm).trans_lt (hmax.trans_le hpower)
  have htop : Fp.infMag - 1 ≤ pow10Floor k := hF.2 ⟨by decide, (hlt _ (Nat.sub_le _ _)).le⟩
  have hinf : 0 < Fp.infMag := by decide
  have hfin := hF.finite
  refine if_pos ⟨by omega, ?_⟩
  rw [← Bool.not_eq_true, isPow10_iff]
  exact (hlt _ hfin.le).ne

/-- Down from -324, the power is below the least positive F64. -/
theorem pow10Floor_of_le {k : ℤ} (hk : k ≤ -324 * (Fp.unitsPerOne : ℤ)) : pow10Floor k = 0 := by
  have hU := Fp.unitsPerOne_pos
  have hkR : (k : ℝ) / Fp.unitsPerOne ≤ -(324 : ℕ) := (div_le_iff₀ hU).mpr (by exact_mod_cast hk)
  have hpower : (10 : ℝ) ^ ((k : ℝ) / Fp.unitsPerOne) ≤ (10 ^ 324)⁻¹ := by
    rw [← Real.rpow_natCast, ← Real.rpow_neg (by norm_num)]
    exact Real.rpow_le_rpow_of_exponent_le (by norm_num) hkR
  have hleast : ((10 : ℝ) ^ 324)⁻¹ < Fp.magReal 1 := by
    have h : Fp.unitsPerOne < 10 ^ 324 := by decide +kernel
    rw [Fp.magReal, show Fp.unitsOfMag 1 = 1 by decide, Nat.cast_one, one_div]
    exact inv_strictAnti₀ hU (by exact_mod_cast h)
  have hbelow := (isFloorMag_pow10Floor k).magReal_le.trans_lt (hpower.trans_lt hleast)
  exact Nat.lt_one_iff.mp (Fp.magReal_strictMono.lt_iff_lt.mp hbelow)

theorem isPow10_zero (k : ℤ) : isPow10 0 k = false := by
  rw [← Bool.not_eq_true, isPow10_iff, Fp.magReal_zero]
  exact (by positivity : (0 : ℝ) < 10 ^ ((k : ℝ) / Fp.unitsPerOne)).ne

/-- The shortcuts of `pow10` answer what its last case does: one of the two results. -/
theorem pow10_eq_lower_or_upper {x : F64} (hx : Fp.finite x = true) :
    pow10 x = Fp.pack false (pow10Lower (Fp.scaled x)) ∨ pow10 x = Fp.pack false (pow10Upper (Fp.scaled x)) := by
  simp only [pow10, hx, reduceCtorEq, if_false]
  split_ifs with hlarge hsmall hexact
  · exact .inl (by rw [pow10Lower_of_ge hlarge, pack_infMag])
  · have hfloor := pow10Floor_of_le hsmall
    cases Config.pow10Up x with
    | true => exact .inr (by rw [pow10Upper, hfloor, isPow10_zero]; rfl)
    | false => exact .inl (by rw [pow10Lower, hfloor]; rfl)
  · exact .inl (by rw [pow10Lower, hexact.2]; simp)
  · cases Config.pow10Up x with
    | true => exact .inr rfl
    | false => exact .inl rfl

/-- Settles O49: `pow10` is one of the two results, and each has the property. -/
theorem pow10IsAccurate : Obligations.Pow10IsAccurate := by
  intro x hx
  rcases pow10_eq_lower_or_upper hx with h | h <;> rw [h]
  · exact accurate_pow10Lower x
  · exact accurate_pow10Upper x

end Sys2Proof.Machine
end

section
/-! PROOFS. A push (spec/41_smoother.md R163 to R167): what it does to the windows (O50), and that the mean of one value is that value,
so that single-shot mode smooths nothing (O51). -/

namespace Sys2Proof.Fp

/-! ### Rounding a value to itself -/

/-- A factor common to both parts of the quotient does not change the rounded integer. -/
theorem divNearestEven_mul_right {n d c : ℕ} (hc : 0 < c) : divNearestEven (n * c) (d * c) = divNearestEven n d := by
  have hup : d * c < 2 * (n % d * c) ↔ d < 2 * (n % d) := by
    rw [← mul_assoc, Nat.mul_lt_mul_right hc]
  have htie : 2 * (n % d * c) = d * c ↔ 2 * (n % d) = d := by
    rw [← mul_assoc, Nat.mul_left_inj hc.ne']
  simp only [divNearestEven, Nat.mul_div_mul_right _ _ hc, Nat.mul_mod_mul_right, hup, htie]

/-- Rounding a quotient by 1 in a common factor. -/
theorem round_mul_right (neg : Bool) (n : ℕ) {c : ℕ} (hc : 0 < c) : round neg (n * c) c = round neg n 1 := by
  rw [round, round, roundMag, roundMag, Nat.mul_div_cancel _ hc, Nat.div_one, Nat.one_mul, Nat.mul_comm c,
    divNearestEven_mul_right hc]

/-- The units of a finite value are rounded to that value. -/
theorem round_units {x : F64} (hx : finite x = true) : round (sign x) (units x) 1 = x := by
  have hmag : roundMag (units x) 1 = mag x := unitsOfMag_strictMono.injective (unitsOfMag_roundMag_of_fits (fits_units x))
  rw [round, hmag, min_eq_left (of_decide_eq_true hx : mag x < infMag).le, pack_sign_mag]

/-- A sum from +0.0 keeps a first value that is finite with a clear sign bit. -/
theorem zero_add_of_finite {x : F64} (hx : finite x = true) (hsign : sign x = false) : add zero x = x := by
  have hscaled : scaled x = units x := by rw [scaled, hsign]; rfl
  have hnonneg : ¬ (units x : ℤ) < 0 := (Int.natCast_nonneg _).not_gt
  rw [add_of_finite finite_zero hx, scaled_zero, Int.zero_add, ofScaled_eq_round, hscaled, hsign, Bool.and_false,
    decide_eq_false hnonneg, ite_self, Int.natAbs_natCast, ← hsign, round_units hx]

/-- Division by 1.0 keeps a finite value. -/
theorem div_ofNat_one {x : F64} (hx : finite x = true) : div x (ofNat 1) = x := by
  obtain ⟨hfin, hsign, hunits⟩ := ofNat_exact (n := 1) (by norm_num)
  rw [Nat.one_mul] at hunits
  have hmag : mag (ofNat 1) ≠ 0 := fun h => zero_lt_unitsPerOne.ne' (by rw [← hunits, units, h]; rfl)
  rw [div_of_finite hx hfin hmag, hsign, Bool.bne_false, hunits, round_mul_right _ _ zero_lt_unitsPerOne, round_units hx]

end Sys2Proof.Fp

namespace Sys2Proof.Machine

/-! ### The windows -/

theorem smoothPush_truncating {s : State} (h : s.mode = .truncating) (x : List F64) (f0 : F64) :
    smoothPush s x f0 =
      { sw := [x.map pow10], fw := [f0], spec := meanSpectrum s.cfg.bins [x.map pow10], f0 := mean [f0] } := by
  rw [smoothPush, h]
  rfl

/-- A sliding window's newest elements (R164). -/
theorem pushWindow_sliding {α : Type} (cap : ℕ) (window : List α) (x : α) :
    pushWindow .sliding cap window x <:+ window ++ [x]
      ∧ (pushWindow .sliding cap window x).length = min cap (window.length + 1) :=
  ⟨lastN_suffix _ _, by rw [pushWindow, lastN_length, List.length_append, List.length_singleton]⟩

/-- Settles O50: the windows by mode, and the means as they are defined. -/
theorem windowsAfterPush : Obligations.WindowsAfterPush := by
  rintro s x f0 r rfl
  refine ⟨fun htrunc => ?_, fun hslide => ?_, ?_, rfl, fun n hn => ?_⟩
  · rw [smoothPush_truncating htrunc]
    exact ⟨rfl, rfl⟩
  · rw [smoothPush, hslide]
    obtain ⟨hsw, hswLength⟩ := pushWindow_sliding s.specCap s.sw (x.map pow10)
    obtain ⟨hfw, hfwLength⟩ := pushWindow_sliding s.f0Cap s.fw f0
    exact ⟨hsw, hswLength, hfw, hfwLength⟩
  · simp only [smoothPush, meanSpectrum, mean, List.length_map]
  · obtain ⟨hfin, hsign, hunits⟩ := Fp.ofNat_exact hn
    refine ⟨hfin, ?_⟩
    rw [Fp.toReal_eq, hsign, hunits, Fp.signUnit_false, Int.cast_one, one_mul, Nat.cast_mul,
      mul_div_cancel_right₀ _ Fp.unitsPerOne_pos.ne']

/-! ### Single-shot mode -/

/-- The mean of one value is the value, if its sign bit is clear (R166). -/
theorem mean_singleton {v : F64} (hv : Fp.finite v = true) (hsign : Fp.sign v = false) : mean [v] = v := by
  rw [mean, List.foldl_cons, List.foldl_nil, Fp.zero_add_of_finite hv hsign, List.length_singleton, Fp.div_ofNat_one hv]

/-- The mean spectrum of a window of one spectrum without negative zeros is that spectrum. -/
theorem meanSpectrum_singleton {w : List F64} (hw : ∀ v ∈ w, Fp.finite v = true ∧ Fp.sign v = false) :
    meanSpectrum w.length [w] = w := by
  refine List.ext_getElem (by simp [meanSpectrum]) fun i hi hi' => ?_
  obtain ⟨hfin, hsign⟩ := hw _ (List.getElem_mem hi')
  simp only [meanSpectrum, List.getElem_map, List.getElem_range, List.map_cons, List.map_nil, element,
    List.getD_eq_getElem _ _ hi', mean_singleton hfin hsign]

/-- No power of ten is a negative zero (R166). -/
theorem sign_pow10 {x : F64} (hx : Fp.finite x = true) : Fp.sign (pow10 x) = false := by
  obtain ⟨hoverflow, hinRange, -, -⟩ := pow10IsAccurate x hx
  by_cases hin : ∃ w, Fp.finite w = true ∧ (10 : ℝ) ^ SynthRef.toReal x ≤ SynthRef.toReal w
  · exact (hinRange hin).2.1
  · push Not at hin
    rw [hoverflow hin]
    decide

/-- Accept's effect, where its four checks pass (R225). -/
theorem accept_of_checks {s : State} (hf0 : validF0 s.f0In = true) (hspec : allFinite s.specIn = true)
    (hsmoF0 : validF0 (smoothPush s s.specIn s.f0In).f0 = true) (hsmoSpec : allFinite (smoothPush s s.specIn s.f0In).spec = true) :
    accept s = .ok (commitSmoothed (smoothPush s s.specIn s.f0In) s) := by
  simp [accept, hf0, hspec, hsmoF0, hsmoSpec]

theorem execPush_of_accept {s t : State} (hrun : s.running = true) (hidle : s.busy = false) (h : accept s = .ok t) :
    exec .push s = .next t := by
  have hgate : gateError true .running s = none := gateError_eq_none_iff.mpr (by simp [hrun, hidle])
  rw [show exec .push s = execPush s from rfl, execPush, issueGated_open hgate, h, settle]

/-- What a single-shot push commits: the operands' own values, in the windows and in the results. -/
def singleShot (s : State) : State :=
  { s with sw := [s.specIn.map pow10], fw := [s.f0In], specOut := s.specIn.map pow10, smoF0 := s.f0In }

theorem execPush_singleShot {s : State} (hmode : s.mode = .truncating) (hrun : s.running = true) (hidle : s.busy = false)
    (hlen : s.specIn.length = s.cfg.bins) (hf0 : validF0 s.f0In = true) (hspec : allFinite s.specIn = true)
    (hpowers : allFinite (s.specIn.map pow10) = true) : exec .push s = .next (singleShot s) := by
  have hlinear : ∀ v ∈ s.specIn.map pow10, Fp.finite v = true ∧ Fp.sign v = false := fun v hv => by
    refine ⟨List.all_eq_true.mp hpowers v hv, ?_⟩
    obtain ⟨x, hx, rfl⟩ := List.mem_map.mp hv
    exact sign_pow10 (List.all_eq_true.mp hspec x hx)
  have hmean : meanSpectrum s.cfg.bins [s.specIn.map pow10] = s.specIn.map pow10 := by
    rw [← hlen, ← List.length_map (f := pow10)]
    exact meanSpectrum_singleton hlinear
  obtain ⟨hf0Fin, hf0Sign⟩ := finite_of_freqValid (.inr hf0)
  have hpush : smoothPush s s.specIn s.f0In =
      { sw := [s.specIn.map pow10], fw := [s.f0In], spec := s.specIn.map pow10, f0 := s.f0In } := by
    rw [smoothPush_truncating hmode, hmean, mean_singleton hf0Fin hf0Sign]
  refine execPush_of_accept hrun hidle ?_
  rw [accept_of_checks hf0 hspec (by rwa [hpush]) (by rwa [hpush]), hpush]
  rfl

/-- Settles O51: the second push has the same operands, so it commits the same values. -/
theorem singleShotIsIdempotent : Obligations.SingleShotIsIdempotent := by
  intro s hmode hrun hidle hlen hf0 hspec hpowers
  exact ⟨singleShot s, execPush_singleShot hmode hrun hidle hlen hf0 hspec hpowers, rfl,
    execPush_singleShot (s := singleShot s) hmode hrun hidle hlen hf0 hspec hpowers⟩

end Sys2Proof.Machine
end

section
/-! PROOFS. The pulse generator (spec/42_pulse_generator.md): its transitions (O52), and that its outputs over a run of samples are pulses
exactly at the rising edges (O53). -/

namespace Sys2Proof.Fp

/-- A NaN is above nothing. -/
theorem lt_of_nan_right {a b : F64} (hb : isNaN b = true) : lt a b = false := by simp [lt, hb]

/-- A zero of either sign has the key 0, so it is not above +0.0. -/
theorem not_zero_lt_of_mag_zero {x : F64} (hx : mag x = 0) : lt zero x = false := by
  have hkey : key x = key zero := by simp [key, hx, show mag zero = 0 by decide]
  simp [lt, hkey]

end Sys2Proof.Fp

namespace Sys2Proof.Machine

/-! ### One sample -/

theorem pgStep_low_of_positive {x : F64} (hx : Fp.lt Fp.zero x = true) : pgStep .low x = (Fp.one, .high) := by
  simp [pgStep, hx]

theorem pgStep_high_of_positive {x : F64} (hx : Fp.lt Fp.zero x = true) : pgStep .high x = (Fp.zero, .high) := by
  simp [pgStep, hx]

theorem pgStep_of_not_positive (e : Edge) {x : F64} (hx : Fp.lt Fp.zero x = false) : pgStep e x = (Fp.zero, .low) := by
  simp [pgStep, hx]

/-- Settles O52, one transition at a time. -/
theorem pulseTransitions : Obligations.PulseTransitions := by
  intro x
  refine ⟨fun hx => ⟨pgStep_low_of_positive hx, pgStep_high_of_positive hx⟩,
    fun hx => ⟨pgStep_of_not_positive .low hx, pgStep_of_not_positive .high hx⟩, ?_⟩
  rintro (hnan | hzero)
  · exact Fp.lt_of_nan_right hnan
  · exact Fp.not_zero_lt_of_mag_zero hzero

/-! ### A run of samples -/

/-- From any edge state the pulses are the rising edges: High stands for a positive sample before the run. -/
theorem count_one_pulseTrain (e : Edge) (xs : List F64) :
    (pulseTrain e xs).count Fp.one = risingEdges (decide (e = .high)) (xs.map (Fp.lt Fp.zero)) := by
  have hne : Fp.zero ≠ Fp.one := by decide
  induction xs generalizing e with
  | nil => rfl
  | cons x xs ih =>
    rw [pulseTrain, List.map_cons, risingEdges]
    rcases pgStep_cases e x with ⟨hx, rfl, hstep⟩ | ⟨hx, rfl, hstep⟩ | ⟨hx, hstep⟩ <;> rw [hstep, hx]
    · simp [ih, Nat.add_comm]
    · simp [ih, List.count_cons_of_ne hne]
    · simp [ih, List.count_cons_of_ne hne]

/-- Every output is 1.0 or +0.0. -/
theorem mem_pulseTrain {e : Edge} {xs : List F64} {y : F64} (hy : y ∈ pulseTrain e xs) : y = Fp.one ∨ y = Fp.zero := by
  induction xs generalizing e with
  | nil => cases hy
  | cons x xs ih =>
    rcases List.mem_cons.mp hy with rfl | hy
    · rcases pgStep_cases e x with ⟨-, -, hstep⟩ | ⟨-, -, hstep⟩ | ⟨-, hstep⟩ <;> simp [hstep]
    · exact ih hy

/-- Samples that are not above 0 keep the pulse generator silent and Low. -/
theorem pulseTrain_low_append {xs : List F64} (hxs : ∀ x ∈ xs, Fp.lt Fp.zero x = false) (ys : List F64) :
    pulseTrain .low (xs ++ ys) = List.replicate xs.length Fp.zero ++ pulseTrain .low ys := by
  induction xs with
  | nil => rfl
  | cons x xs ih =>
    obtain ⟨hx, hrest⟩ := List.forall_mem_cons.mp hxs
    rw [List.cons_append, pulseTrain, pgStep_of_not_positive .low hx, ih hrest]
    rfl

/-! ### The first sample of a session -/

theorem exec_start_of_stopped {s : State} (hidle : s.busy = false) (hstop : s.running = false) :
    exec .start s = .next (startSession s) := by
  have hgate : gateError true .stopped s = none := gateError_eq_none_iff.mpr (by simp [hidle, hstop])
  rw [show exec .start s = execStart s from rfl, execStart, issueGated_open hgate, settle]

/-- At phase +0.0 the oscillator puts out +1.0 (R271), and START has set the edge state to Low (R181). -/
theorem pulseOf_startSession (s : State) : pulseOf (startSession s) = Fp.one := by
  have hpositive : Fp.lt Fp.zero (oscSample Fp.zero) = true := by decide
  rw [pulseOf, startSession_edge, startSession_oscPhase, pgStep_low_of_positive hpositive]

/-- Settles O53, by induction on the run from any edge state. -/
theorem pulsesCountRisingEdges : Obligations.PulsesCountRisingEdges := by
  refine ⟨fun xs => ⟨count_one_pulseTrain .low xs, fun y => mem_pulseTrain⟩, fun xs x hxs hx => ?_, fun s t hidle hstop hst => ?_⟩
  · rw [pulseTrain_low_append hxs, pulseTrain, pgStep_low_of_positive hx, pulseTrain]
  · rw [exec_start_of_stopped hidle hstop] at hst
    cases hst
    exact pulseOf_startSession s

end Sys2Proof.Machine
end

section
/-! PROOFS. Rounding keeps order (spec/00_scope.md section 5): of two numbers, the greater is never rounded to a smaller F64. From this:
what the crossfader's gains (spec/43_crossfader.md R199) and its sum of steps (R198) need of the arithmetic. -/

namespace Sys2Proof.Fp

/-! ### The magnitude bits -/

theorem divNearestEven_mono {n n' : ℕ} (d : ℕ) (h : n ≤ n') : divNearestEven n d ≤ divNearestEven n' d := by
  rcases (Nat.div_le_div_right (c := d) h).lt_or_eq with hlt | heq
  · exact (divNearestEven_bounds n d).2.trans (Nat.le_trans hlt (divNearestEven_bounds n' d).1)
  · have hrem : n % d ≤ n' % d := by
      have hn := Nat.div_add_mod n d
      have hn' := Nat.div_add_mod n' d
      rw [← heq] at hn'
      omega
    simp only [divNearestEven, ← heq]
    split <;> split <;> omega

theorem spareBits_mono {q q' : ℕ} (h : q ≤ q') : spareBits q ≤ spareBits q' := by
  by_contra hgt
  have hlow : 2 ^ 52 * 2 ^ spareBits q ≤ q := two_pow_spareBits_le (by omega)
  have hhigh : q' < 2 ^ 53 * 2 ^ spareBits q' := lt_two_pow_spareBits q'
  have hstep : 2 ^ 53 * 2 ^ spareBits q' ≤ 2 ^ 52 * 2 ^ spareBits q := by
    rw [← pow_add, ← pow_add]
    exact Nat.pow_le_pow_right (by norm_num) (by omega)
  omega

/-- A greater quotient has no smaller magnitude bits: where as many places are given up the significand decides, and where more are,
its leading bit. -/
theorem roundMag_mono {n n' : ℕ} (d : ℕ) (h : n ≤ n') : roundMag n d ≤ roundMag n' d := by
  rw [roundMag_eq, roundMag_eq]
  rcases (spareBits_mono (Nat.div_le_div_right (c := d) h)).lt_or_eq with hlt | heq
  · have hcarry := significand_le n d
    have hlead := le_significand (n := n') (d := d) (by omega)
    omega
  · rw [significand, significand, heq]
    exact Nat.add_le_add_left (divNearestEven_mono _ h) _

/-! ### Rounded values -/

theorem le_iff_key {a b : F64} (ha : isNaN a = false) (hb : isNaN b = false) : le a b = true ↔ key a ≤ key b := by
  simp [le, ha, hb]

theorem key_round (neg : Bool) (n d : ℕ) : key (round neg n d) = signUnit neg * (min (roundMag n d) infMag : ℕ) := by
  cases neg <;> simp [key, mag_round, signUnit]

theorem round_false_mono {n n' : ℕ} (d : ℕ) (h : n ≤ n') : le (round false n d) (round false n' d) = true := by
  rw [le_iff_key (round_not_nan _ _ _) (round_not_nan _ _ _), key_round, key_round, signUnit_false, one_mul, one_mul]
  exact_mod_cast min_le_min_right infMag (roundMag_mono d h)

theorem key_ofScaled (zeroNeg : Bool) (k : ℤ) :
    key (ofScaled zeroNeg k) = signUnit (decide (k < 0)) * (min (roundMag k.natAbs 1) infMag : ℕ) := by
  rcases eq_or_ne k 0 with rfl | hk
  · cases zeroNeg <;> decide
  · rw [ofScaled_eq_round, key_round, if_neg hk]

theorem ofScaled_mono (zeroNeg zeroNeg' : Bool) {k k' : ℤ} (h : k ≤ k') :
    le (ofScaled zeroNeg k) (ofScaled zeroNeg' k') = true := by
  rw [le_iff_key (isNaN_ofScaled _ _) (isNaN_ofScaled _ _), key_ofScaled, key_ofScaled]
  have hmono {m m' : ℕ} (hm : m ≤ m') : min (roundMag m 1) infMag ≤ min (roundMag m' 1) infMag :=
    min_le_min_right infMag (roundMag_mono 1 hm)
  rcases lt_or_ge k 0 with hk | hk <;> rcases lt_or_ge k' 0 with hk' | hk'
  · have := hmono (show k'.natAbs ≤ k.natAbs by omega)
    rw [decide_eq_true hk, decide_eq_true hk', signUnit_true]
    omega
  · rw [decide_eq_true hk, decide_eq_false hk'.not_gt, signUnit_true, signUnit_false]
    omega
  · omega
  · have := hmono (show k.natAbs ≤ k'.natAbs by omega)
    rw [decide_eq_false hk.not_gt, decide_eq_false hk'.not_gt, signUnit_false]
    omega

/-! ### The operations of the crossfader -/

/-- Of two sums of finite values, the greater is not rounded to a smaller one. -/
theorem add_le_add_of_scaled {a b c d : F64} (ha : finite a = true) (hb : finite b = true) (hc : finite c = true)
    (hd : finite d = true) (h : scaled a + scaled b ≤ scaled c + scaled d) : le (add a b) (add c d) = true := by
  rw [add_of_finite ha hb, add_of_finite hc hd]
  exact ofScaled_mono _ _ h

/-- Taking away more leaves no more. -/
theorem sub_antitone {a b c : F64} (ha : finite a = true) (hb : finite b = true) (hc : finite c = true) (h : le b c = true) :
    le (sub a c) (sub a b) = true := by
  refine add_le_add_of_scaled ha ((finite_neg c).trans hc) ha ((finite_neg b).trans hb) ?_
  have := (le_iff_scaled hb hc).mp h
  rw [scaled_neg, scaled_neg]
  omega

/-- A square rises with the magnitude. -/
theorem mul_self_le_of_units {a b : F64} (ha : finite a = true) (hb : finite b = true) (h : units a ≤ units b) :
    le (mul a a) (mul b b) = true := by
  rw [mul_of_finite ha ha, mul_of_finite hb hb, bne_self_eq_false, bne_self_eq_false]
  exact round_false_mono _ (Nat.mul_le_mul h h)

theorem le_of_le_of_le {a b c : F64} (hab : le a b = true) (hbc : le b c = true) : le a c = true := by
  simp only [le, Bool.and_eq_true, decide_eq_true_eq] at hab hbc ⊢
  obtain ⟨⟨ha, -⟩, hlow⟩ := hab
  obtain ⟨⟨-, hc⟩, hhigh⟩ := hbc
  exact ⟨⟨ha, hc⟩, hlow.trans hhigh⟩

/-- What lies between finite values is finite. -/
theorem finite_of_le_of_le {a x b : F64} (ha : finite a = true) (hb : finite b = true) (hax : le a x = true) (hxb : le x b = true) :
    finite x = true := by
  simp only [le, Bool.and_eq_true, decide_eq_true_eq] at hax hxb
  obtain ⟨-, hlow⟩ := hax
  obtain ⟨-, hhigh⟩ := hxb
  simp only [finite, decide_eq_true_eq, key] at ha hb hlow hhigh ⊢
  split_ifs at hlow hhigh <;> omega

/-- A value that has reached 1.0 stays there when what is added is not below 0. An infinity absorbs what is added. -/
theorem one_le_add {a x : F64} (hx : finite x = true) (hx0 : le zero x = true) (ha : le one a = true) : le one (add a x) = true := by
  rcases finite_or_inf_or_nan a with hfin | hinf | hnan
  · have hsum : scaled one + scaled zero ≤ scaled a + scaled x :=
      Int.add_le_add ((le_iff_scaled finite_one hfin).mp ha) ((le_iff_scaled finite_zero hx).mp hx0)
    have hone : add one zero = one := by decide +kernel
    have hle := add_le_add_of_scaled finite_one finite_zero hfin hx hsum
    rwa [hone] at hle
  · have hne : x ≠ neg a := by
      rintro rfl
      rw [finite_neg] at hx
      exact absurd (not_inf_of_finite hx) (by simp [hinf])
    rwa [add_inf_left hinf (not_nan_of_finite hx) hne]
  · simp [le, hnan] at ha

end Sys2Proof.Fp
end

section
/-! PROOFS. The crossfader (spec/43_crossfader.md): one tick (O36), the ticks of a whole crossfade (O54), the gains (O55), and the end of
a crossfade that preempts another (O56). -/

namespace Sys2Proof.Machine

/-! ### One tick -/

/-- A tick whose sum reaches 1.0 drops the outgoing filter (R197). -/
theorem xfadeTick_ends {s : State} {o n : FilterSlot} {p : F64} (hrun : s.running = true) (hocc : s.occ = .dual o n p)
    (hreach : Fp.le Fp.one (Fp.add p s.actXstep) = true) : (xfadeTick s).occ = .single n := by
  simp [hrun, hocc, advanceCrossfade, hreach]

/-- A tick whose sum stays below 1.0 advances the progress to it (R197). -/
theorem xfadeTick_advances {s : State} {o n : FilterSlot} {p : F64} (hrun : s.running = true) (hocc : s.occ = .dual o n p)
    (hbelow : Fp.le Fp.one (Fp.add p s.actXstep) = false) : (xfadeTick s).occ = .dual o n (Fp.add p s.actXstep) := by
  simp [hrun, hocc, advanceCrossfade, hbelow]

/-- A tick of a stopped block, or of one without a crossfade, changes nothing (R197). -/
theorem xfadeTick_idle {s : State} (h : s.running = false ∨ ∀ o n p, s.occ ≠ .dual o n p) : (xfadeTick s).occ = s.occ := by
  rw [xfadeTick_occ]
  rcases h with hstop | hdual
  · simp [hstop]
  · rcases advanceCrossfade_cases s.actXstep s.occ with ⟨o, n, p, hocc, -⟩ | ⟨o, n, p, hocc, -⟩ | ⟨-, hsame⟩
    · exact absurd hocc (hdual o n p)
    · exact absurd hocc (hdual o n p)
    · rw [hsame, ite_self]

/-- Settles O36: the step is the tick, and the tick ends, advances or leaves the crossfade. -/
theorem crossfadeTickRule : Obligations.CrossfadeTickRule := by
  intro s rest hs
  refine ⟨xfadeTick { s with schedule := rest }, step_of_cons hs, rfl, exportIr_xfadeTick _, fun o n p hrun hocc hreach => ?_,
    fun o n p hrun hocc hbelow => ?_, xfadeTick_idle (s := { s with schedule := rest })⟩
  · have hend := xfadeTick_ends (s := { s with schedule := rest }) hrun hocc hreach
    exact ⟨hend, xfProgress_of_not_dual fun _ _ _ h => nomatch hend.symm.trans h⟩
  · have hadv := xfadeTick_advances (s := { s with schedule := rest }) hrun hocc hbelow
    exact ⟨hadv, xfProgress_of_dual hadv⟩

/-! ### The ticks of a crossfade -/

/-- From progress +0.0 the progress is the sum of the steps, for as long as that stays below 1.0 (R198). -/
theorem afterTicks_dual {s : State} {o n : FilterSlot} {k : Nat} (hrun : s.running = true) (hocc : s.occ = .dual o n Fp.zero)
    (hbelow : ∀ j, 1 ≤ j → j ≤ k → Fp.le Fp.one (stepSum s.actXstep j) = false) :
    (afterTicks s k).occ = .dual o n (stepSum s.actXstep k) := by
  induction k with
  | zero => exact hocc
  | succ k ih =>
    have hk := ih fun j hj hjk => hbelow j hj (Nat.le_succ_of_le hjk)
    have hnext : Fp.le Fp.one (Fp.add (stepSum s.actXstep k) (afterTicks s k).actXstep) = false := by
      rw [afterTicks_actXstep]
      exact hbelow (k + 1) (Nat.le_add_left 1 k) le_rfl
    rw [afterTicks, xfadeTick_advances ((afterTicks_running s k).trans hrun) hk hnext, afterTicks_actXstep, stepSum]

/-- The first sum that reaches 1.0 ends the crossfade in its incoming filter (R198). -/
theorem afterTicks_ends {s : State} {o n : FilterSlot} {k : Nat} (hrun : s.running = true) (hocc : s.occ = .dual o n Fp.zero)
    (hbelow : ∀ j, 1 ≤ j → j ≤ k → Fp.le Fp.one (stepSum s.actXstep j) = false)
    (hreach : Fp.le Fp.one (stepSum s.actXstep (k + 1)) = true) : (afterTicks s (k + 1)).occ = .single n := by
  rw [stepSum, ← afterTicks_actXstep s k] at hreach
  exact xfadeTick_ends ((afterTicks_running s k).trans hrun) (afterTicks_dual hrun hocc hbelow) (by simpa using hreach)

theorem exportIr_afterTicks (s : State) (k : Nat) : (afterTicks s k).exportIr = s.exportIr := by
  induction k with
  | zero => rfl
  | succ k ih => exact (exportIr_xfadeTick _).trans ih

/-- A sum of steps that has reached 1.0 stays there. -/
theorem one_le_stepSum_of_le {x : F64} {j k : Nat} (hx : Fp.finite x = true) (hx0 : Fp.le Fp.zero x = true) (hjk : j ≤ k)
    (h : Fp.le Fp.one (stepSum x j) = true) : Fp.le Fp.one (stepSum x k) = true := by
  induction k, hjk using Nat.le_induction with
  | base => exact h
  | succ k _ ih => exact Fp.one_le_add hx hx0 ih

/-- The rows of R198: a step, how many ticks leave its sum below 1.0, and that sum. -/
def crossfadeRows : List (F64 × Nat × F64) :=
  [(0x3F847AE147AE147B#64, 99, 0x3FEFAE147AE147B4#64), (0x3FB999999999999A#64, 10, 0x3FEFFFFFFFFFFFFF#64),
    (0x3FD0000000000000#64, 3, 0x3FE8000000000000#64), (0x3FD3333333333333#64, 3, 0x3FECCCCCCCCCCCCC#64),
    (0x3FE0000000000000#64, 1, 0x3FE0000000000000#64), (0x3FF0000000000000#64, 0, 0#64)]

/-- Every row's last sum below 1.0, and the sum after it, evaluated. -/
theorem crossfadeRows_last_sum : ∀ row ∈ crossfadeRows, Fp.finite row.1 = true ∧ Fp.le Fp.zero row.1 = true
    ∧ stepSum row.1 row.2.1 = row.2.2 ∧ Fp.le Fp.one row.2.2 = false ∧ Fp.le Fp.one (Fp.add row.2.2 row.1) = true := by
  decide +kernel

/-- Settles O54: the ticks by induction; of each row only the last sum below 1.0 is evaluated, since no earlier one can have reached
1.0. -/
theorem crossfadeTickCount : Obligations.CrossfadeTickCount := by
  refine ⟨fun s o n hrun hocc k hbelow => ⟨afterTicks_dual hrun hocc hbelow, afterTicks_ends hrun hocc hbelow⟩, fun row hrow => ?_,
    by decide +kernel, by decide +kernel⟩
  obtain ⟨hfin, hpos, hlast, hbelow, hreach⟩ := crossfadeRows_last_sum row hrow
  refine ⟨fun j hj => ?_, hlast, by rwa [stepSum, hlast]⟩
  by_contra hj1
  have hstay := one_le_stepSum_of_le hfin hpos hj (Bool.eq_true_of_not_eq_false hj1)
  rw [hlast, hbelow] at hstay
  cases hstay

/-! ### The gains -/

/-- R199's gains at 0, 0.25, 0.5 and 1, evaluated. -/
theorem gains_at_quarters :
    (gainIn Fp.zero, gainOut Fp.zero) = (Fp.zero, Fp.one)
      ∧ (gainIn 0x3FD0000000000000#64, gainOut 0x3FD0000000000000#64) = (0x3FB0000000000000#64, 0x3FEE000000000000#64)
      ∧ (gainIn Fp.half, gainOut Fp.half) = (0x3FD0000000000000#64, 0x3FE8000000000000#64)
      ∧ (gainIn Fp.one, gainOut Fp.one) = (Fp.one, Fp.zero) := by
  decide +kernel

/-- The incoming gain rises with the progress. -/
theorem gainIn_mono {p q : F64} (hp : Fp.finite p = true) (hq : Fp.finite q = true) (hp0 : Fp.le Fp.zero p = true)
    (hpq : Fp.le p q = true) : Fp.le (gainIn p) (gainIn q) = true := by
  rw [Fp.le_iff_scaled Fp.finite_zero hp, Fp.scaled_zero] at hp0
  rw [Fp.le_iff_scaled hp hq] at hpq
  have hq0 := hp0.trans hpq
  rw [Fp.scaled_eq_units hp0, Fp.scaled_eq_units hq0] at hpq
  exact Fp.mul_self_le_of_units hp hq (by exact_mod_cast hpq)

/-- Of a progress in [0, 1] the incoming gain is between those of 0 and 1. -/
theorem finite_gainIn {p : F64} (hp : Fp.finite p = true) (hp0 : Fp.le Fp.zero p = true) (hp1 : Fp.le p Fp.one = true) :
    Fp.finite (gainIn p) = true := by
  have hlow : Fp.le (gainIn Fp.zero) (gainIn p) = true := gainIn_mono Fp.finite_zero hp (by decide) hp0
  have hhigh : Fp.le (gainIn p) (gainIn Fp.one) = true := gainIn_mono hp Fp.finite_one hp0 hp1
  obtain ⟨hzero, -, -, hone⟩ := gains_at_quarters
  rw [(Prod.mk.inj hzero).1] at hlow
  rw [(Prod.mk.inj hone).1] at hhigh
  exact Fp.finite_of_le_of_le Fp.finite_zero Fp.finite_one hlow hhigh

/-- Settles O55: the square and the difference are rounded, and rounding keeps order. -/
theorem gainsAreMonotone : Obligations.GainsAreMonotone := by
  refine ⟨fun p q hp0 hpq hq1 => ?_, gains_at_quarters⟩
  have hq0 := Fp.le_of_le_of_le hp0 hpq
  have hp1 := Fp.le_of_le_of_le hpq hq1
  have hp := Fp.finite_of_le_of_le Fp.finite_zero Fp.finite_one hp0 hp1
  have hq := Fp.finite_of_le_of_le Fp.finite_zero Fp.finite_one hq0 hq1
  have hin := gainIn_mono hp hq hp0 hpq
  exact ⟨hin, Fp.sub_antitone Fp.finite_one (finite_gainIn hp hp0 hp1) (finite_gainIn hq hq0 hq1) hin⟩

/-! ### Preemption -/

/-- What an install and ticks short of completion leave: the newest filter alone where there was none, and otherwise a crossfade to it
from the filter that was newest before. -/
theorem occ_afterTicks_installFilter {s : State} {a : List F64} {m : Nat} (hrun : s.running = true)
    (hbelow : ∀ j, 1 ≤ j → j ≤ m → Fp.le Fp.one (stepSum s.actXstep j) = false) :
    (s.occ = .empty → (afterTicks (installFilter a s) m).occ = .single (newFilter s.cfg a))
      ∧ (∀ f, s.occ = .single f →
          (afterTicks (installFilter a s) m).occ = .dual f (newFilter s.cfg a) (stepSum s.actXstep m))
      ∧ (∀ o n p, s.occ = .dual o n p →
          (afterTicks (installFilter a s) m).occ = .dual n (newFilter s.cfg a) (stepSum s.actXstep m)) := by
  have hdual {o : FilterSlot} (hocc : (installFilter a s).occ = .dual o (newFilter s.cfg a) Fp.zero) :=
    afterTicks_dual (k := m) ((installFilter_running a s).trans hrun) hocc hbelow
  refine ⟨fun h => afterTicks_single ?_ m, fun f h => hdual ?_, fun o n p h => hdual ?_⟩ <;> rw [installFilter_occ, h, installInto]

/-- Over a filter that is the newest, an install fades from it, whether or not a crossfade was under way (R191, R200). -/
theorem installInto_of_newest {o : Occupancy} {n : FilterSlot} (h : o = .single n ∨ ∃ old p, o = .dual old n p) (f : FilterSlot) :
    installInto f o = .dual n f Fp.zero := by
  rcases h with rfl | ⟨old, p, rfl⟩ <;> rfl

/-- Settles O56: after the first install the first filter is the newest in every case, so the second install fades from it, and that
crossfade's ticks are those of any other. -/
theorem preemptionEndsInNewest : Obligations.PreemptionEndsInNewest := by
  intro s u t a b m k hrun hu ht hm hk hreach
  obtain ⟨hempty, hsingle, hdual⟩ := occ_afterTicks_installFilter (a := a) hrun hm
  rw [← hu] at hempty hsingle hdual
  have hnewest : u.occ = .single (newFilter s.cfg a) ∨ ∃ old p, u.occ = .dual old (newFilter s.cfg a) p := by
    cases hocc : s.occ with
    | empty => exact .inl (hempty hocc)
    | single f => exact .inr ⟨_, _, hsingle f hocc⟩
    | dual o n p => exact .inr ⟨_, _, hdual o n p hocc⟩
  have hcfg : u.cfg = s.cfg := by rw [hu, afterTicks_cfg, installFilter_cfg]
  have hocc : t.occ = .dual (newFilter s.cfg a) (newFilter s.cfg b) Fp.zero := by
    rw [ht, installFilter_occ, installInto_of_newest hnewest, hcfg]
  have hstep : t.actXstep = s.actXstep := by rw [ht, installFilter_actXstep, hu, afterTicks_actXstep, installFilter_actXstep]
  have hrunning : t.running = true := by rw [ht, installFilter_running, hu, afterTicks_running, installFilter_running, hrun]
  have hexport : t.exportIr = b := by rw [ht, exportIr_installFilter]
  rw [← hstep] at hk hreach
  exact ⟨hempty, hsingle, hdual, by rw [hu, exportIr_afterTicks, exportIr_installFilter], hexport, hocc,
    afterTicks_ends hrunning hocc hk hreach, (exportIr_afterTicks t _).trans hexport⟩

end Sys2Proof.Machine
end

section
/-! PROOFS. The gates and the operand checks of the commands (spec/44_session_commands.md R220), and each command by its gates, its checks
and its effect: NOP (O18), START (O19), CONFIG (O20), STOP (O22), PUSH (O23), FRAME (O24), SYNTH (O25), INSTALL (O26), SETFREQ (O27) and
CLRERR (O28); and that a write to CMD runs the command of its word (O6). -/

namespace Sys2Proof.Machine

/-! ### A command's word -/

theorem issue_of_decode {s : State} {w : Word} {i : Instr} (h : decode w = .ok i) : issue w s = exec i s := by
  rw [issue, h]

/-- Settles O6: the write stores the word and issues it, and the word is that of the command. -/
theorem stepRunsDecodedCommand : Obligations.StepRunsDecodedCommand := by
  intro s w i rest hs hi
  rw [step_commandWrite hs, issue_of_decode hi, fetched]

/-- Settles O18: the word of NOP is zero, and decoding and encoding are inverse (O1, O2). -/
theorem nopHasNoEffect : Obligations.NopHasNoEffect := by
  have hword : encode .nop = 0#64 := rfl
  have hdecode : decode 0#64 = .ok .nop := decodeOfEncode .nop rfl
  refine ⟨fun w => ⟨fun h => ?_, fun h => h ▸ hdecode⟩, fun s => rfl, fun s rest hs => ?_⟩
  · obtain ⟨-, hw⟩ := encodeOfDecode w .nop h
    rw [← hw, hword]
  · exact stepRunsDecodedCommand s 0#64 .nop rest hs hdecode

/-! ### The gates (R220, R294) -/

section Gates

variable {need : SessionNeed} {f : State → Except ErrCode State} {s t : State} {e : ErrCode}

theorem gateError_any (hidle : s.busy = false) : gateError true .any s = none :=
  gateError_eq_none_iff.mpr ⟨fun _ => hidle, nofun, nofun⟩

theorem gateError_running (hidle : s.busy = false) (hrun : s.running = true) : gateError true .running s = none :=
  gateError_eq_none_iff.mpr ⟨fun _ => hidle, fun _ => hrun, nofun⟩

theorem gateError_stopped (hidle : s.busy = false) (hstop : s.running = false) : gateError true .stopped s = none :=
  gateError_eq_none_iff.mpr ⟨fun _ => hidle, nofun, fun _ => hstop⟩

/-- BUSY comes before the session gates (R294). -/
theorem issueGated_busy (hbusy : s.busy = true) : issueGated true need f s = .next (raiseError .busy s) :=
  issueGated_refused (by simp [gateError, hbusy])

theorem issueGated_notRunning (hidle : s.busy = false) (hstop : s.running = false) :
    issueGated true .running f s = .next (raiseError .notRunning s) :=
  issueGated_refused (by simp [gateError, hidle, hstop])

theorem issueGated_notStopped (hidle : s.busy = false) (hrun : s.running = true) :
    issueGated true .stopped f s = .next (raiseError .notStopped s) :=
  issueGated_refused (by simp [gateError, hidle, hrun])

theorem issueGated_ok {ni : Bool} (hgate : gateError ni need s = none) (h : f s = .ok t) : issueGated ni need f s = .next t := by
  rw [issueGated_open hgate, h, settle]

theorem issueGated_error {ni : Bool} (hgate : gateError ni need s = none) (h : f s = .error e) :
    issueGated ni need f s = .next (raiseError e s) := by
  rw [issueGated_open hgate, h, settle]

end Gates

/-! ### The gated commands, each by its gates and its own rule -/

theorem exec_start (s : State) : exec .start s = issueGated true .stopped (fun t => .ok (startSession t)) s := rfl

theorem exec_config (m : SmoothMode) (scap fcap : Nat) (s : State) :
    exec (.config m scap fcap) s = issueGated true .stopped (configure m scap fcap) s := rfl

theorem exec_frame_true (s : State) : exec (.frame true) s = issueGated true .running startFrameJob s := rfl

theorem exec_synth (s : State) : exec .synth s = issueGated true .any startSynthJob s := rfl

theorem exec_push (s : State) : exec .push s = issueGated true .running accept s := rfl

theorem exec_install (s : State) : exec .install s = issueGated true .running installOperand s := rfl

theorem exec_setfreq (s : State) : exec .setfreq s = issueGated true .running setFrequency s := rfl

/-! ### START and STOP -/

theorem winLenWord_startSession (s : State) : (startSession s).winLenWord = 0#64 := by
  rw [State.winLenWord, startSession_sw, startSession_fw]
  rfl

/-- Settles O19: the gates of a stopped block, and the windows and the occupancy that START leaves. -/
theorem startBeginsSession : Obligations.StartBeginsSession := by
  intro s
  refine ⟨fun hidle hstop => ?_, fun hbusy => ?_, fun hidle hrun => ?_⟩
  · exact ⟨startSession s, exec_start_of_stopped hidle hstop, rfl, winLenWord_startSession s,
      exportIr_of_empty (startSession_occ s)⟩
  · rw [exec_start, issueGated_busy hbusy]
  · rw [exec_start, issueGated_notStopped hidle hrun]

theorem stopSession_of_running {s : State} (h : s.running = true) :
    stopSession s = { s with latch := none, running := false, occ := .empty, edge := .low } := by
  simp [stopSession, h]

theorem stopSession_of_stopped {s : State} (h : s.running = false) : stopSession s = { s with latch := none } := by
  rw [stopSession, h]
  rfl

/-- Settles O22: STOP has no gate, and what it tears down is a running session. -/
theorem stopTearsDown : Obligations.StopTearsDown := by
  intro s
  refine ⟨fun hrun => ?_, fun hstop => ?_⟩
  · exact ⟨_, rfl, stopSession_of_running hrun, exportIr_of_empty (by rw [stopSession_of_running hrun])⟩
  · rw [← stopSession_of_stopped hstop]
    rfl

/-! ### CONFIG and SETFREQ -/

/-- The operands that CONFIG takes (R222). -/
theorem configOperands_iff {c : Config} {scap fcap : Nat} {x : F64} :
    (validCapacity scap c.specCapMax && validCapacity fcap c.f0CapMax && validXstep x) = true ↔
      1 ≤ scap ∧ scap ≤ c.specCapMax ∧ 1 ≤ fcap ∧ fcap ≤ c.f0CapMax ∧ Fp.finite x = true ∧ Fp.lt Fp.zero x = true
        ∧ Fp.le x Fp.one = true := by
  simp only [validCapacity, validXstep, Bool.and_eq_true, decide_eq_true_eq, and_assoc]

/-- Settles O20: legal operands are those of CONFIG's check. -/
theorem configSetsLegalOperands : Obligations.ConfigSetsLegalOperands := by
  intro s m scap fcap legal hlegal
  rw [← configOperands_iff] at hlegal
  simp only [exec_config]
  refine ⟨fun hidle hstop h => ?_, fun hidle hstop h => ?_, issueGated_busy, issueGated_notStopped⟩
  · exact issueGated_ok (gateError_stopped hidle hstop) (if_pos (hlegal.mp h))
  · exact issueGated_error (gateError_stopped hidle hstop) (if_neg fun hok => h (hlegal.mpr hok))

theorem setFrequency_of_valid {s : State} (h : validF0 s.f0In = true) : setFrequency s = .ok (setOscFreq s.f0In s) := by
  simp [setFrequency, h]

theorem setFrequency_of_invalid {s : State} (h : validF0 s.f0In = false) : setFrequency s = .error .invalidF0 := if_pos h

/-- Settles O27: SETFREQ checks F0_IN, and its effect is one field. -/
theorem setfreqWritesFrequency : Obligations.SetfreqWritesFrequency := by
  intro s
  simp only [exec_setfreq]
  refine ⟨issueGated_busy, issueGated_notRunning, fun hidle hrun hfin hpos => ?_, fun hidle hrun h => ?_⟩
  · exact issueGated_ok (gateError_running hidle hrun) (setFrequency_of_valid (Bool.and_eq_true_iff.mpr ⟨hfin, hpos⟩))
  · rw [← Bool.and_eq_true_iff, Bool.not_eq_true] at h
    exact issueGated_error (gateError_running hidle hrun) (setFrequency_of_invalid h)

/-! ### Accept (R225): PUSH and FRAME -/

section Accept

variable {s : State}

theorem accept_of_invalid_f0 (hf0 : validF0 s.f0In = false) : accept s = .error .invalidF0 := if_pos hf0

theorem accept_of_invalid_spectrum (hf0 : validF0 s.f0In = true) (hspec : allFinite s.specIn = false) :
    accept s = .error .invalidSpectrum := by
  simp [accept, hf0, hspec]

theorem accept_of_invalid_smoothed_f0 (hf0 : validF0 s.f0In = true) (hspec : allFinite s.specIn = true)
    (hsmoF0 : validF0 (smoothPush s s.specIn s.f0In).f0 = false) : accept s = .error .invalidF0 := by
  simp [accept, hf0, hspec, hsmoF0]

theorem accept_of_invalid_smoothed_spectrum (hf0 : validF0 s.f0In = true) (hspec : allFinite s.specIn = true)
    (hsmoF0 : validF0 (smoothPush s s.specIn s.f0In).f0 = true)
    (hsmoSpec : allFinite (smoothPush s s.specIn s.f0In).spec = false) : accept s = .error .invalidSpectrum := by
  simp [accept, hf0, hspec, hsmoF0, hsmoSpec]

/-- WIN_LEN reads the lengths of the windows just committed, which capacities of 16 bits bound (R29, R38). -/
theorem winLenWord_commitSmoothed {r : Smoothed} (hr : r = smoothPush s s.specIn s.f0In) (hspec : s.specCap < 2 ^ 16)
    (hf0 : s.f0Cap < 2 ^ 16) : (commitSmoothed r s).winLenWord.toNat = r.fw.length * 2 ^ 16 + r.sw.length := by
  obtain ⟨hsw, hfw⟩ := smoothPush_window_lengths s s.specIn s.f0In
  rw [← hr] at hsw hfw
  have hswLt : r.sw.length < 2 ^ 16 := by omega
  have hfwLt : r.fw.length < 2 ^ 16 := by omega
  rw [winLenWord_toNat, commitSmoothed_sw, commitSmoothed_fw, Nat.mod_eq_of_lt hswLt, Nat.mod_eq_of_lt hfwLt]

end Accept

/-- Settles O23: past the gates PUSH is Accept, whose checks are made in order. -/
theorem pushChecksThenCommits : Obligations.PushChecksThenCommits := by
  intro s r hr
  simp only [exec_push]
  refine ⟨issueGated_busy, issueGated_notRunning, fun hidle hrun => ?_⟩
  have hgate := gateError_running hidle hrun
  refine ⟨fun hf0 => ?_, fun hf0 hspec => ?_, fun hf0 hspec hsmoF0 => ?_, fun hf0 hspec hsmoF0 hsmoSpec => ?_,
    fun hf0 hspec hsmoF0 hsmoSpec => ?_⟩
  · exact issueGated_error hgate (accept_of_invalid_f0 hf0)
  · exact issueGated_error hgate (accept_of_invalid_spectrum hf0 hspec)
  · exact issueGated_error hgate (accept_of_invalid_smoothed_f0 hf0 hspec (hr ▸ hsmoF0))
  · exact issueGated_error hgate (accept_of_invalid_smoothed_spectrum hf0 hspec (hr ▸ hsmoF0) (hr ▸ hsmoSpec))
  · have haccept : accept s = .ok (commitSmoothed r s) := by
      subst hr
      exact accept_of_checks hf0 hspec hsmoF0 hsmoSpec
    exact ⟨commitSmoothed r s, issueGated_ok hgate haccept, rfl, winLenWord_commitSmoothed hr⟩

theorem startFrameJob_of_refused {s : State} {e : ErrCode} (h : accept s = .error e) : startFrameJob s = .error e := by
  rw [startFrameJob, h]

theorem startFrameJob_of_accepted {s t : State} (h : accept s = .ok t) :
    startFrameJob s = .ok (latchJob (.frame t.specOut t.smoF0) t) := by
  rw [startFrameJob, h]

/-- Settles O24: FRAME latches what Accept has just committed. -/
theorem frameCommitsAndLatches : Obligations.FrameCommitsAndLatches := by
  intro s
  simp only [exec_frame_true]
  refine ⟨rfl, issueGated_busy, issueGated_notRunning, fun hidle hrun => ?_⟩
  have hgate := gateError_running hidle hrun
  refine ⟨fun e he => ?_, ?_⟩
  · exact issueGated_error hgate (startFrameJob_of_refused he)
  · rintro r rfl hf0 hspec hsmoF0 hsmoSpec
    exact issueGated_ok hgate (startFrameJob_of_accepted (accept_of_checks hf0 hspec hsmoF0 hsmoSpec))

/-! ### SYNTH -/

theorem validPowerSpectrum_iff {xs : List F64} :
    validPowerSpectrum xs = true ↔ ∀ x ∈ xs, Fp.isNaN x = false ∧ x ≠ Fp.posInf := by
  simp only [validPowerSpectrum, List.all_eq_true, Bool.and_eq_true, Bool.not_eq_true', decide_eq_true_eq]

/-- A spectrum that SYNTH refuses has a NaN or a +infinity (R121). -/
theorem validPowerSpectrum_eq_false_iff {xs : List F64} :
    validPowerSpectrum xs = false ↔ ∃ x ∈ xs, Fp.isNaN x = true ∨ x = Fp.posInf := by
  rw [← Bool.not_eq_true, validPowerSpectrum_iff]
  push Not
  simp only [or_iff_not_imp_left, Bool.not_eq_true]

section Synth

variable {s : State}

theorem startSynthJob_of_invalid_f0 (hf0 : validF0 s.f0In = false) : startSynthJob s = .error .invalidF0 := if_pos hf0

theorem startSynthJob_of_invalid_spectrum (hf0 : validF0 s.f0In = true) (hspec : validPowerSpectrum s.specIn = false) :
    startSynthJob s = .error .invalidSpectrum := by
  simp [startSynthJob, hf0, hspec]

theorem startSynthJob_of_invalid_shift (hf0 : validF0 s.f0In = true) (hspec : validPowerSpectrum s.specIn = true)
    (hshift : validShift s.shiftIn = false) : startSynthJob s = .error .invalidShift := by
  simp [startSynthJob, hf0, hspec, hshift]

theorem startSynthJob_of_checks (hf0 : validF0 s.f0In = true) (hspec : validPowerSpectrum s.specIn = true)
    (hshift : validShift s.shiftIn = true) : startSynthJob s = .ok (latchJob (.synth s.specIn s.f0In s.shiftIn) s) := by
  simp [startSynthJob, hf0, hspec, hshift]

end Synth

/-- Settles O25: SYNTH has the BUSY gate alone, and its checks are made in order. -/
theorem synthLatchesOperands : Obligations.SynthLatchesOperands := by
  intro s
  simp only [exec_synth, ← validPowerSpectrum_iff, ← validPowerSpectrum_eq_false_iff]
  refine ⟨issueGated_busy, fun hidle hf0 => ?_, fun hidle hf0 hspec => ?_, fun hidle hf0 hspec hshift => ?_,
    fun hidle hf0 hspec hshift => ?_⟩
  · exact issueGated_error (gateError_any hidle) (startSynthJob_of_invalid_f0 hf0)
  · exact issueGated_error (gateError_any hidle) (startSynthJob_of_invalid_spectrum hf0 hspec)
  · exact issueGated_error (gateError_any hidle) (startSynthJob_of_invalid_shift hf0 hspec hshift)
  · exact issueGated_ok (gateError_any hidle) (startSynthJob_of_checks hf0 hspec hshift)

/-! ### INSTALL -/

theorem allFinite_iff {xs : List F64} : allFinite xs = true ↔ ∀ x ∈ xs, Fp.finite x = true := List.all_eq_true

theorem allFinite_eq_false_iff {xs : List F64} : allFinite xs = false ↔ ∃ x ∈ xs, Fp.finite x = false := by
  simp [allFinite]

theorem installOperand_of_finite {s : State} (h : allFinite s.irIn = true) : installOperand s = .ok (installFilter s.irIn s) := by
  simp [installOperand, h]

theorem installOperand_of_not_finite {s : State} (h : allFinite s.irIn = false) : installOperand s = .error .invalidIr := if_pos h

/-- Settles O26: INSTALL checks IR_IN, and the filter with a zero delay line comes in by the case of the occupancy. -/
theorem installByOccupancy : Obligations.InstallByOccupancy := by
  rintro s f rfl
  simp only [exec_install, ← allFinite_iff, ← allFinite_eq_false_iff]
  refine ⟨issueGated_busy, issueGated_notRunning, fun hidle hrun hir => ?_, fun hidle hrun hir => ?_⟩
  · exact issueGated_error (gateError_running hidle hrun) (installOperand_of_not_finite hir)
  · refine ⟨installFilter s.irIn s, issueGated_ok (gateError_running hidle hrun) (installOperand_of_finite hir), rfl,
      exportIr_installFilter _ s, fun hocc => ?_, fun a hocc => ?_, fun o n p hocc => ?_⟩
    all_goals
      rw [installFilter_occ, hocc]
      rfl

/-! ### CLRERR -/

theorem raiseError_err_of_recorded {e c : ErrCode} {s : State} (hc : s.err = some c) : (raiseError e s).err = some c := by
  rw [raiseError_err, hc, Option.getD_some]

theorem storeLoc_err {s t : State} {v : Word} {l : Loc} (h : storeLoc s v l = some t) : t.err = s.err := by
  cases l <;> simp only [storeLoc, Option.some.injEq, reduceCtorEq] at h <;> subst h <;> rfl

/-- A job that completes while an error is recorded records none (R298). -/
theorem completeJob_err_of_recorded {j : Job} {s : State} {c : ErrCode} (hc : s.err = some c) : (completeJob j s).err = some c := by
  rcases completeJob_cases j s with ⟨-, h⟩ | ⟨spec, f0, -, -, h⟩ | ⟨-, -, h⟩ <;> rw [h]
  · exact hc
  · exact hc
  · exact raiseError_err_of_recorded hc

/-- A recorded error is cleared by the CLRERR command and by RESET alone (R298). -/
theorem step_keeps_recorded_error {s t : State} {c : ErrCode} (h : step s = .next t) (hc : s.err = some c) :
    t.err = some c ∨ s.nextCommand = some .clrerr ∨ s.schedule.head? = some .reset := by
  rcases step_cases h with ⟨-, rfl⟩ | ⟨rest, a, n, -, r, rfl⟩ | ⟨rest, a, n, v, -, hwrite⟩ | ⟨rest, -, rfl⟩ | ⟨rest, -, rfl⟩
    | ⟨rest, j, -, -, rfl⟩ | ⟨rest, -, rfl⟩ | ⟨rest, hhead, -⟩
  · exact .inl hc
  · exact .inl hc
  · rcases hwrite with rfl | ⟨l, u, -, -, hu, rfl⟩ | ⟨-, -, rfl⟩ | ⟨i, -, -, hi, hx⟩
    · exact .inl hc
    · exact .inl ((storeLoc_err hu).trans hc)
    · exact .inl (raiseError_err_of_recorded hc)
    · rcases exec_err hx hc with ht | rfl
      · exact .inl ht
      · exact .inr (.inl hi)
  · exact .inl (by rw [sampleTick_frame]; exact hc)
  · exact .inl hc
  · exact .inl (completeJob_err_of_recorded hc)
  · exact .inl hc
  · exact .inr (.inr (by rw [hhead]; rfl))

/-- Settles O28: CLRERR has no gate and no check. -/
theorem clrerrClearsRecord : Obligations.ClrerrClearsRecord := by
  refine ⟨fun s => rfl, fun s t h hs ht => ?_⟩
  obtain ⟨c, hc⟩ := Option.ne_none_iff_exists'.mp hs
  refine (step_keeps_recorded_error h hc).resolve_left ?_
  rw [ht]
  nofun

end Sys2Proof.Machine
end

section
/-! PROOFS. The frame of every command (O29): for each named update, the locations that it leaves as they were, through the views that show
what it writes. -/

namespace Sys2Proof.Machine

section Views

variable {l : Loc} (s : State)

theorem readLoc_startSession (h : mayChange l .start = false) : readLoc (startSession s) l = readLoc s l := by
  cases l with
  | status | oscFreq | oscPhase | winLen | pgState | xfProgress | exportIr => cases h
  | _ => rfl

theorem readLoc_stopSession (h : mayChange l .stop = false) : readLoc (stopSession s) l = readLoc s l := by
  cases l with
  | status | pgState | xfProgress | exportIr => cases h
  | _ => rfl

theorem readLoc_setConfig {m : SmoothMode} {a b : Nat} (x : F64) (h : mayChange l (.config m a b) = false) :
    readLoc (setConfig m a b x s) l = readLoc s l := by
  cases l with
  | status | actCfg | actXstep => cases h
  | _ => rfl

/-- The commit of a push shows in the smoother's locations, for PUSH and FRAME alike (R225). -/
theorem readLoc_commitSmoothed (r : Smoothed) (h : l.showsSmoother = false) : readLoc (commitSmoothed r s) l = readLoc s l := by
  cases l with
  | specOut | smoF0 | winLen => cases h
  | _ => rfl

theorem readLoc_latchJob (j : Job) (h : l ≠ .status) : readLoc (latchJob j s) l = readLoc s l := by
  cases l with
  | status => exact absurd rfl h
  | _ => rfl

theorem readLoc_installFilter (ir : List F64) (h : mayChange l .install = false) :
    readLoc (installFilter ir s) l = readLoc s l := by
  cases l with
  | status | xfProgress | exportIr => cases h
  | _ => rfl

theorem readLoc_setOscFreq (f : F64) (h : l ≠ .oscFreq) : readLoc (setOscFreq f s) l = readLoc s l := by
  cases l with
  | oscFreq => exact absurd rfl h
  | _ => rfl

theorem readLoc_clearErrors (h : l ≠ .status) : readLoc (clearErrors s) l = readLoc s l := by
  cases l with
  | status => exact absurd rfl h
  | _ => rfl

end Views

/-- Every command that may be refused may change STATUS, which holds the error record (R292). -/
theorem mayChange_status {i : Instr} (hnop : i ≠ .nop) (hframe : i ≠ .frame false) : mayChange .status i = true := by
  cases i with
  | nop => exact absurd rfl hnop
  | frame v => cases v with
    | false => exact absurd rfl hframe
    | true => rfl
  | _ => rfl

theorem ne_of_mayChange {l m : Loc} {i : Instr} (hl : mayChange l i = false) (hm : mayChange m i = true) : l ≠ m := by
  rintro rfl
  rw [hl] at hm
  cases hm

/-- A command leaves every location but those that its rule writes. -/
theorem exec_readLoc {i : Instr} {s t : State} (h : exec i s = .next t) {l : Loc} (hl : mayChange l i = false) :
    readLoc t l = readLoc s l := by
  rcases exec_next h with ⟨-, rfl⟩ | ⟨e, rfl, hnop, -, -, hframe⟩ | ⟨rfl, -, -, rfl⟩ | ⟨rfl, rfl⟩
    | ⟨m, a, b, rfl, -, -, -, -, -, rfl⟩ | ⟨u, hi, -, -, hu, rfl⟩ | ⟨rfl, -, -, -, -, rfl⟩ | ⟨rfl, -, -, -, rfl⟩ | ⟨rfl, -, -, -, rfl⟩ | ⟨rfl, rfl⟩
  · rfl
  · exact readLoc_raiseError e s (ne_of_mayChange hl (mayChange_status hnop hframe))
  · exact readLoc_startSession s hl
  · exact readLoc_stopSession s hl
  · exact readLoc_setConfig s _ hl
  · obtain ⟨-, -, -, -, rfl⟩ := accept_ok hu
    obtain ⟨hstatus, hsmoother⟩ : l ≠ .status ∧ l.showsSmoother = false := by
      rcases hi with rfl | rfl <;> simpa [mayChange] using hl
    have hcommit := readLoc_commitSmoothed s (smoothPush s s.specIn s.f0In) hsmoother
    split
    · exact hcommit
    · exact (readLoc_latchJob _ _ hstatus).trans hcommit
  · exact readLoc_latchJob s _ (ne_of_mayChange hl rfl)
  · exact readLoc_installFilter s _ hl
  · exact readLoc_setOscFreq s _ (ne_of_mayChange hl rfl)
  · exact readLoc_clearErrors s (ne_of_mayChange hl rfl)

/-- Settles O29: the frame by location, and a byte is a byte of the location at its address. -/
theorem commandsLeaveOtherLocations : Obligations.CommandsLeaveOtherLocations := by
  intro i s t h
  obtain ⟨-, -, -, -, -, -, -, -, hcfg, -⟩ := exec_keeps h
  refine ⟨fun l => exec_readLoc h, fun addr haddr => ?_⟩
  rw [byteAt, byteAt, hcfg]
  exact Option.map_congr fun l hl => by rw [exec_readLoc h (haddr l hl)]

end Sys2Proof.Machine
end

section
/-! PROOFS. The completion of a job (spec/44_session_commands.md R235): what JOB_DONE does for each kind of job (O37), and that it reads
the latch and none of the operands (O38). -/

namespace Sys2Proof.Machine

/-- JOB_DONE completes the job in the latch (R235). -/
theorem step_jobDone {s : State} {rest : List Event} {j : Job} (hs : s.schedule = .jobDone :: rest) (hj : s.latch = some j) :
    step s = .next (completeJob j { s with schedule := rest }) := by
  rw [step_of_cons hs, perform, jobDone, hj]

/-- A FRAME job's completion, by its result (R235, R299). -/
theorem completeJob_frame (spec : List F64) (f0 : F64) (s : State) :
    completeJob (.frame spec f0) s =
      if ∀ x ∈ synthesize s.cfg spec f0 Fp.zero, Fp.finite x = true then
        setOscFreq f0 (installFilter (synthesize s.cfg spec f0 Fp.zero) (finishJob (synthesize s.cfg spec f0 Fp.zero) s))
      else raiseError .invalidIr (finishJob (synthesize s.cfg spec f0 Fp.zero) s) :=
  if_congr allFinite_iff rfl rfl

/-- A FRAME job is in flight only in a running session (R235). -/
theorem State.Inv.running_of_frameInFlight {s : State} (h : s.Inv) (hframe : s.frameInFlight = true) : s.running = true := by
  obtain ⟨j, hj, hkind⟩ := Option.any_eq_true _ _ |>.mp hframe
  obtain ⟨-, hrun⟩ := h.latchOk j hj
  exact hrun hkind

/-- Settles O37: the step is the completion of the latched job, which writes what its kind and its result say. -/
theorem jobDoneRule : Obligations.JobDoneRule := by
  intro s rest hs
  refine ⟨?_, fun h => h.running_of_frameInFlight, fun spec f0 shift hj => step_jobDone hs hj, ?_⟩
  · rw [State.nextEnabled, hs]
    rfl
  · rintro spec f0 ir hj rfl
    rw [step_jobDone hs hj, completeJob_frame]
    rfl

/-- The operands do not show in a job's completion, which leaves them as they are (R234). -/
theorem completeJob_withOperands (j : Job) (s : State) (spec ir : List F64) (f0 shift xstep : F64) :
    completeJob j { s with specIn := spec, irIn := ir, f0In := f0, shiftIn := shift, xstepIn := xstep } =
      { completeJob j s with specIn := spec, irIn := ir, f0In := f0, shiftIn := shift, xstepIn := xstep } := by
  cases j with
  | frame jobSpec jobF0 =>
    rw [completeJob_frame, completeJob_frame]
    split <;> rfl
  | synth => rfl

/-- Settles O38: both steps complete the latched job. -/
theorem jobIgnoresLaterOperands : Obligations.JobIgnoresLaterOperands := by
  intro s t rest spec ir f0 shift xstep hs h
  rw [step_of_cons hs] at h
  obtain ⟨j, hj, rfl⟩ := jobDone_next h
  have hjob := completeJob_withOperands j { s with schedule := rest } spec ir f0 shift xstep
  calc step { s with specIn := spec, irIn := ir, f0In := f0, shiftIn := shift, xstepIn := xstep }
      = .next (completeJob j { s with
          schedule := rest, specIn := spec, irIn := ir, f0In := f0, shiftIn := shift, xstepIn := xstep }) := step_jobDone hs hj
    _ = _ := congrArg Host.Outcome.next hjob

end Sys2Proof.Machine
end

section
/-! PROOFS. The oscillator's arithmetic (spec/45_sample_domain.md R270, R272): of a value that is not negative, `floor` and the fraction
are those of the real number (O47), and where the increment is `1 / 2^j` with j up to 53 no addition rounds, so that phases, square and
pulses have the period `2^j` (O48). -/

namespace Sys2Proof.Fp

/-! ### Exact values -/

theorem toReal_of_scaled {x : F64} {n : ℕ} (h : scaled x = n) : SynthRef.toReal x = n / unitsPerOne := by
  rw [SynthRef.toReal, h, Int.cast_natCast]

/-- Settles O47: `floor` and the fraction of the units are exact, and they are the quotient and the remainder by the units of 1.0. -/
theorem floorAndFractionAreExact : Obligations.FloorAndFractionAreExact := by
  intro t ht hle
  have h0 : 0 ≤ scaled t := by rwa [le_iff_scaled finite_zero ht, scaled_zero] at hle
  obtain ⟨-, hfloor⟩ := floor_exact ht h0
  obtain ⟨-, hfract⟩ := sub_floor_exact ht h0
  rw [toReal_of_scaled hfloor, toReal_of_scaled hfract, toReal_of_scaled (scaled_eq_units h0)]
  constructor
  · rw [Int.floor_div_natCast, Int.floor_natCast, Nat.cast_mul, mul_div_cancel_right₀ _ unitsPerOne_pos.ne']
    norm_cast
  · exact Int.fract_div_natCast_eq_div_natCast_mod.symm

/-- A multiple of a power of two by at most `2^53` has at most 53 bits. -/
theorem fits_mul_two_pow {m : ℕ} (hm : m ≤ 2 ^ 53) (s : ℕ) : Fits (m * 2 ^ s) := by
  rcases hm.lt_or_eq with hlt | rfl
  · exact ⟨m, s, hlt, rfl⟩
  · exact ⟨1, 53 + s, by norm_num, by rw [pow_add, one_mul]⟩

/-- A sum of values that are not below 0 is exact where its units fit and do not pass those of 1.0. -/
theorem add_exact {a b : F64} {n : ℕ} (ha : finite a = true) (hb : finite b = true) (hsum : scaled a + scaled b = n) (hfits : Fits n)
    (hn : n ≤ unitsPerOne) : finite (add a b) = true ∧ scaled (add a b) = n := by
  have hone : unitsPerOne < unitsOfMag infMag := by decide +kernel
  rw [add_of_finite ha hb, hsum]
  exact ofScaled_exact hfits (hn.trans_lt hone)

theorem finite_half : finite half = true := by decide

theorem scaled_half : scaled half * 2 = unitsPerOne := by decide +kernel

end Sys2Proof.Fp

namespace Sys2Proof.Machine

/-! ### Phases -/

/-- `x` is the finite value `m / 2^j`, in units of `2^-1074`. -/
def IsDyadic (j m : ℕ) (x : F64) : Prop := Fp.finite x = true ∧ Fp.scaled x = (m * 2 ^ (1074 - j) : ℕ)

theorem two_pow_mul_unit {j : ℕ} (hj : j ≤ 53) : 2 ^ j * 2 ^ (1074 - j) = Fp.unitsPerOne := by
  rw [← pow_add, Nat.add_sub_cancel' (by omega), Fp.unitsPerOne]

theorem isDyadic_iff {j m : ℕ} (hj : j ≤ 53) {x : F64} :
    IsDyadic j m x ↔ Fp.finite x = true ∧ SynthRef.toReal x = m / 2 ^ j := by
  have hunit : ((2 ^ (1074 - j) : ℕ) : ℝ) ≠ 0 := by positivity
  rw [IsDyadic, SynthRef.toReal, ← two_pow_mul_unit hj, Nat.cast_mul (2 ^ j), ← div_div, div_right_comm, Nat.cast_pow 2 j,
    Nat.cast_ofNat, div_left_inj' (by positivity), div_eq_iff hunit]
  norm_cast

theorem isDyadic_zero (j : ℕ) : IsDyadic j 0 Fp.zero := ⟨Fp.finite_zero, by rw [Fp.scaled_zero, Nat.zero_mul, Nat.cast_zero]⟩

/-- One sample period advances the phase by `1 / 2^j` exactly, and wraps at 1 (R270): the sum has at most `2^53` units of `1 / 2^j`. -/
theorem isDyadic_advancePhase {rate j m : ℕ} {f phase : F64} (hj : j ≤ 53) (hq : IsDyadic j 1 (Fp.div f (Fp.ofNat rate)))
    (hphase : IsDyadic j m phase) (hm : m < 2 ^ j) : IsDyadic j ((m + 1) % 2 ^ j) (advancePhase rate f phase) := by
  obtain ⟨hqfin, hqscaled⟩ := hq
  obtain ⟨hpfin, hpscaled⟩ := hphase
  have hsum : Fp.scaled phase + Fp.scaled (Fp.div f (Fp.ofNat rate)) = ((m + 1) * 2 ^ (1074 - j) : ℕ) := by
    rw [hpscaled, hqscaled, ← Nat.cast_add, ← Nat.add_mul]
  have hfits := Fp.fits_mul_two_pow (Nat.le_trans hm (Nat.pow_le_pow_right two_pos hj)) (1074 - j)
  have hone : (m + 1) * 2 ^ (1074 - j) ≤ Fp.unitsPerOne := by
    rw [← two_pow_mul_unit hj]
    exact Nat.mul_le_mul_right _ hm
  obtain ⟨hfin, hscaled⟩ := Fp.add_exact hpfin hqfin hsum hfits hone
  have h0 : 0 ≤ Fp.scaled (Fp.add phase (Fp.div f (Fp.ofNat rate))) := hscaled ▸ Int.natCast_nonneg _
  have hunits : Fp.units (Fp.add phase (Fp.div f (Fp.ofNat rate))) = (m + 1) * 2 ^ (1074 - j) := by
    exact_mod_cast (Fp.scaled_eq_units h0).symm.trans hscaled
  obtain ⟨hfractfin, hfract⟩ := Fp.sub_floor_exact hfin h0
  rw [hunits, ← two_pow_mul_unit hj, Nat.mul_mod_mul_right] at hfract
  exact ⟨hfractfin, hfract⟩

/-- The phases from 0 are `(k mod 2^j) / 2^j` (R272). -/
theorem isDyadic_afterSamples {rate j : ℕ} {f : F64} (hj : j ≤ 53) (hq : IsDyadic j 1 (Fp.div f (Fp.ofNat rate))) (k : ℕ) :
    IsDyadic j (k % 2 ^ j) (afterSamples rate f Fp.zero k) := by
  induction k with
  | zero => exact isDyadic_zero j
  | succ k ih =>
    rw [← Nat.mod_add_mod]
    exact isDyadic_advancePhase hj hq ih (Nat.mod_lt k (Nat.two_pow_pos j))

/-! ### The square and the pulses -/

/-- The square of period `P` (R272): +1.0 on the first half of each period, -1.0 on the rest. -/
def periodicSquare (P k : ℕ) : F64 := if k % P < P / 2 then Fp.one else Fp.negOne

/-- The oscillator's sample at a phase `m / 2^j` (R271). -/
theorem oscSample_of_isDyadic {j m : ℕ} {x : F64} (hj1 : 1 ≤ j) (hj : j ≤ 53) (hx : IsDyadic j m x) :
    oscSample x = if m < 2 ^ j / 2 then Fp.one else Fp.negOne := by
  obtain ⟨hfin, hscaled⟩ := hx
  have hlt : Fp.lt x Fp.half = true ↔ m < 2 ^ j / 2 := by
    have hdouble : 2 ^ j = 2 ^ j / 2 * 2 := (Nat.div_mul_cancel (dvd_pow_self 2 (by omega))).symm
    have hhalf : Fp.scaled Fp.half = (2 ^ j / 2 * 2 ^ (1074 - j) : ℕ) := by
      have hunit := two_pow_mul_unit hj
      rw [hdouble, mul_right_comm] at hunit
      have := Fp.scaled_half
      omega
    rw [Fp.lt_iff_scaled hfin Fp.finite_half, hscaled, hhalf, Nat.cast_lt, Nat.mul_lt_mul_right (Nat.two_pow_pos _)]
  rw [oscSample, if_congr hlt rfl rfl]

/-- The edge state before sample `k` of the square of period `P`: Low at first, then High where the sample before was +1.0. -/
def periodicEdge (P : ℕ) : ℕ → Edge
  | 0 => .low
  | k + 1 => if k % P < P / 2 then .high else .low

/-- In the first half of a period only the first sample comes after a -1.0, or after nothing. -/
theorem periodicEdge_of_first_half {P k : ℕ} (hk : k % P < P / 2) : periodicEdge P k = if k % P = 0 then .low else .high := by
  cases k with
  | zero => simp [periodicEdge]
  | succ k =>
    have hr : k % P < P := Nat.mod_lt k (by omega)
    rw [← Nat.mod_add_mod] at hk ⊢
    rw [periodicEdge]
    rcases (Nat.succ_le_of_lt hr).eq_or_lt with hwrap | hlt
    · rw [if_neg (by omega), if_pos (by rw [show k % P + 1 = P from hwrap, Nat.mod_self])]
    · rw [Nat.mod_eq_of_lt hlt] at hk ⊢
      rw [if_pos (by omega), if_neg (by omega)]

/-- The pulse generator on the square: a pulse on the first sample of each period, and the edge state follows the square (R180). -/
theorem pgStep_periodic {P : ℕ} (h2 : 2 ≤ P) (k : ℕ) :
    pgStep (periodicEdge P k) (periodicSquare P k) = (if k % P = 0 then Fp.one else Fp.zero, periodicEdge P (k + 1)) := by
  have hone : Fp.lt Fp.zero Fp.one = true := by decide
  have hnegOne : Fp.lt Fp.zero Fp.negOne = false := by decide
  rcases lt_or_ge (k % P) (P / 2) with hfirst | hrest
  · rw [periodicSquare, periodicEdge, if_pos hfirst, if_pos hfirst, periodicEdge_of_first_half hfirst]
    split
    · exact pgStep_low_of_positive hone
    · exact pgStep_high_of_positive hone
  · rw [periodicSquare, periodicEdge, if_neg hrest.not_gt, if_neg hrest.not_gt, if_neg (by omega)]
    exact pgStep_of_not_positive _ hnegOne

/-- The pulse generator's outputs over a run, from the edge states before each sample. -/
theorem pulseTrain_map {square : ℕ → F64} {edge : ℕ → Edge} {pulse : ℕ → F64}
    (h : ∀ k, pgStep (edge k) (square k) = (pulse k, edge (k + 1))) (n k : ℕ) :
    pulseTrain (edge k) ((List.range' k n).map square) = (List.range' k n).map pulse := by
  induction n generalizing k with
  | zero => rfl
  | succ n ih => rw [List.range'_succ, List.map_cons, List.map_cons, pulseTrain, h, ih]

/-- Settles O48: the phases are exact by induction on the samples; they give the square, and the square the edge states and pulses. -/
theorem powerOfTwoPeriodIsExact : Obligations.PowerOfTwoPeriodIsExact := by
  rintro rate j f phase square hj1 hj hfin hreal rfl rfl
  have hq : IsDyadic j 1 (Fp.div f (Fp.ofNat rate)) := (isDyadic_iff hj).mpr ⟨hfin, by rw [hreal, Nat.cast_one]⟩
  have hphase := isDyadic_afterSamples hj hq
  have hsquare (k : ℕ) : oscSample (afterSamples rate f Fp.zero k) = periodicSquare (2 ^ j) k :=
    oscSample_of_isDyadic hj1 hj (hphase k)
  refine ⟨fun k => ⟨((isDyadic_iff hj).mp (hphase k)).2, hsquare k⟩, fun n => ?_⟩
  have hperiod : 2 ≤ 2 ^ j := Nat.le_self_pow (by omega) 2
  simp only [hsquare, List.range_eq_range']
  exact pulseTrain_map (pgStep_periodic hperiod) n 0

end Sys2Proof.Machine
end

section
/-! PROOFS. SAMPLE_TICK (spec/45_sample_domain.md R274, R276): a stopped block and one with no filter are silent (O32, O33), and one or
two filters take the pulse and are mixed (O34, O35). A finite filter's output is never a NaN, so one filter needs no drawn bits. -/

namespace Sys2Proof.Fp

/-! ### Products with a pulse and sums with a finite value -/

theorem mul_one_of_finite {a : F64} (ha : finite a = true) : mul a one = a := by
  have hunits : units one = unitsPerOne := by decide +kernel
  rw [mul_of_finite ha finite_one, show sign one = false by decide, Bool.bne_false, hunits,
    round_mul_right _ _ zero_lt_unitsPerOne, round_units ha]

theorem finite_mul_zero {a : F64} (ha : finite a = true) : finite (mul a zero) = true := by
  have hlt : roundMag 0 unitsPerOne < infMag := by decide +kernel
  rwa [mul_of_finite ha finite_zero, show units zero = 0 by decide, Nat.mul_zero, finite_round]

/-- A finite tap times a pulse sample is finite. -/
theorem finite_mul_pulse {a x : F64} (ha : finite a = true) (hx : x = zero ∨ x = one) : finite (mul a x) = true := by
  rcases hx with rfl | rfl
  · exact finite_mul_zero ha
  · rwa [mul_one_of_finite ha]

/-- Adding a finite value gives no NaN: a sum that has overflowed stays infinite. -/
theorem isNaN_add_finite {a b : F64} (ha : isNaN a = false) (hb : finite b = true) : isNaN (add a b) = false := by
  rcases finite_or_inf_or_nan a with hfin | hinf | hnan
  · rw [add_of_finite hfin hb, isNaN_ofScaled]
  · have hne : b ≠ neg a := by
      rintro rfl
      rw [finite_neg] at hb
      exact absurd (not_inf_of_finite hb) (by simp [hinf])
    rwa [add_inf_left hinf (not_nan_of_finite hb) hne]
  · rw [ha] at hnan
    cases hnan

end Sys2Proof.Fp

namespace Sys2Proof.Machine

/-! ### The convolution -/

/-- The left fold over taps and samples in pairs is R194's, by ascending tap. -/
theorem firSum_eq_range {ir dl : List F64} {n : ℕ} (hir : ir.length = n) (hdl : dl.length = n) :
    firSum ir dl = (List.range n).foldl (fun acc k => Fp.add acc (Fp.mul (element ir k) (element dl k))) Fp.zero := by
  have hzip : ir.zip dl = (List.range n).map fun k => (element ir k, element dl k) := by
    refine List.ext_getElem (by simp [hir, hdl]) fun k hk _ => ?_
    rw [List.length_zip, hir, hdl, min_self] at hk
    simp [element, hir, hdl, hk]
  rw [firSum, hzip, List.foldl_map]

theorem filterOutput_eq_range {c : Config} {f : FilterSlot} (h : f.ok c) :
    filterOutput f =
      (List.range c.fftSize).foldl (fun acc k => Fp.add acc (Fp.mul (element f.ir k) (element f.dl k))) Fp.zero := by
  obtain ⟨hir, hdl, -, -⟩ := h
  exact firSum_eq_range hir hdl

/-- Finite taps over pulse samples add up to no NaN. -/
theorem isNaN_firSum {ir dl : List F64} (hir : ∀ a ∈ ir, Fp.finite a = true) (hdl : ∀ x ∈ dl, x = Fp.zero ∨ x = Fp.one) :
    Fp.isNaN (firSum ir dl) = false := by
  refine List.foldlRecOn (motive := fun acc => Fp.isNaN acc = false) _ _ (by decide) fun acc hacc t ht => ?_
  obtain ⟨htap, hsample⟩ := List.of_mem_zip ht
  exact Fp.isNaN_add_finite hacc (Fp.finite_mul_pulse (hir _ htap) (hdl _ hsample))

theorem isNaN_filterOutput {c : Config} {f : FilterSlot} (h : f.ok c) : Fp.isNaN (filterOutput f) = false := by
  obtain ⟨-, -, hir, hdl⟩ := h
  exact isNaN_firSum (allFinite_iff.mp hir) hdl

/-! ### The tick -/

theorem emitted_of_not_nan (draw : ℕ) {v : F64} (h : Fp.isNaN v = false) : emitted draw v = v := by simp [emitted, h]

theorem isNaN_emitted (draw : ℕ) {v : F64} (h : Fp.isNaN v = true) : Fp.isNaN (emitted draw v) = true := by
  simp [emitted, h, Fp.nanOf_isNaN]

/-- SAMPLE_TICK of a running block (R276), from the pulse and the next edge state. -/
theorem step_sampleTick_running {s : State} {rest : List Event} {x : F64} {e : Edge} (hs : s.schedule = .sampleTick :: rest)
    (hrun : s.running = true) (hpulse : (x, e) = pgStep s.edge (oscSample s.oscPhase)) :
    step s = .next { s with
      schedule := rest, oscPhase := advancePhase s.cfg.sampleRate s.oscFreq s.oscPhase, edge := e
      occ := stepFilters s.cfg x s.occ, audioOut := emitted s.draws (mix (stepFilters s.cfg x s.occ))
      draws := if Fp.isNaN (mix (stepFilters s.cfg x s.occ)) then s.draws + 1 else s.draws } := by
  obtain ⟨rfl, rfl⟩ := Prod.mk.inj hpulse
  rw [step_of_cons hs, perform, sampleTick, if_pos hrun]
  rfl

/-- A sample that is no NaN is put out as it is, and draws nothing. -/
theorem step_sampleTick_of_not_nan {s : State} {rest : List Event} {x y : F64} {e : Edge} (hs : s.schedule = .sampleTick :: rest)
    (hrun : s.running = true) (hpulse : (x, e) = pgStep s.edge (oscSample s.oscPhase))
    (hy : y = mix (stepFilters s.cfg x s.occ)) (hnan : Fp.isNaN y = false) :
    step s = .next { s with
      schedule := rest, oscPhase := advancePhase s.cfg.sampleRate s.oscFreq s.oscPhase, edge := e
      occ := stepFilters s.cfg x s.occ, audioOut := y } := by
  rw [step_sampleTick_running hs hrun hpulse, ← hy, emitted_of_not_nan _ hnan, hnan]
  rfl

/-- Settles O32: a stopped block's tick is its output alone. -/
theorem stoppedSampleIsSilent : Obligations.StoppedSampleIsSilent := by
  intro s rest hs hstop
  rw [step_of_cons hs, perform]
  exact congrArg Host.Outcome.next (sampleTick_stopped hstop)

/-- The edge state after a sample is High exactly on the first half of the oscillator's period (R180, R271). -/
theorem pgStep_oscSample_edge (e : Edge) (phase : F64) :
    (pgStep e (oscSample phase)).2 = if Fp.lt phase Fp.half then .high else .low := by
  have hone : Fp.lt Fp.zero Fp.one = true := by decide
  have hnegOne : Fp.lt Fp.zero Fp.negOne = false := by decide
  rw [oscSample]
  split
  · cases e with
    | low => rw [pgStep_low_of_positive hone]
    | high => rw [pgStep_high_of_positive hone]
  · rw [pgStep_of_not_positive e hnegOne]

/-- Settles O33: there is no filter to step, and the mix of none is +0.0. -/
theorem emptySampleIsSilent : Obligations.EmptySampleIsSilent := by
  rintro s rest u hs hrun hocc rfl
  have hfilters : stepFilters s.cfg (pulseOf s) s.occ = s.occ := by rw [hocc, stepFilters]
  have hmix : Fp.zero = mix (stepFilters s.cfg (pulseOf s) s.occ) := by rw [hfilters, hocc, mix]
  have hpulse : (pulseOf s, if Fp.lt s.oscPhase Fp.half then .high else .low) = pgStep s.edge (oscSample s.oscPhase) :=
    Prod.ext rfl (pgStep_oscSample_edge s.edge s.oscPhase).symm
  have hstep := step_sampleTick_of_not_nan hs hrun hpulse hmix (by decide)
  rwa [hfilters] at hstep

/-- Settles O34: the invariant makes the taps finite and the delay line one of pulses, and the new pulse keeps it so. -/
theorem singleFilterSample : Obligations.SingleFilterSample := by
  rintro s rest a square u x y e d hinv hs hrun hocc rfl hpulse rfl rfl hy
  have hx : x = pulseOf s := congrArg Prod.fst hpulse
  have ha : a.ok s.cfg := by
    have := hinv.occOk
    rwa [hocc] at this
  have hnext : (filterNext s.cfg x a).ok s.cfg := filterNext_ok hinv.one_le_fftSize (hx ▸ pulseOf_zero_or_one s) ha
  have hfilters : stepFilters s.cfg x s.occ = .single (filterNext s.cfg x a) := by rw [hocc, stepFilters]
  have hsum : y = filterOutput (filterNext s.cfg x a) := hy.trans (filterOutput_eq_range hnext).symm
  have hnan : Fp.isNaN y = false := hsum ▸ isNaN_filterOutput hnext
  have hstep := step_sampleTick_of_not_nan hs hrun hpulse (by rw [hfilters, mix, hsum]) hnan
  rw [hfilters] at hstep
  exact ⟨hnan, hstep⟩

/-- Settles O35: both filters are stepped and mixed, and of a NaN only the bits are drawn. -/
theorem dualFilterSample : Obligations.DualFilterSample := by
  rintro s rest o n p square u x y e o' n' hs hrun hocc rfl hpulse rfl rfl rfl hy
  have hfilters : stepFilters s.cfg x s.occ = .dual (filterNext s.cfg x o) (filterNext s.cfg x n) p := by rw [hocc, stepFilters]
  have hmix : mix (stepFilters s.cfg x s.occ) = y := by rw [hfilters, hy]; rfl
  have hstep := step_sampleTick_running hs hrun hpulse
  rw [hmix, hfilters] at hstep
  exact ⟨_, hstep, rfl, emitted_of_not_nan s.draws, isNaN_emitted s.draws⟩

end Sys2Proof.Machine
end

section
/-! PROOFS. The error record (spec/60_exceptions.md): the error action (O15), what a refused command does (O16), who may record an error
(O17), and AUDIO_FAULT's bit (O39). No gate and no operand check reads the record, so a command is refused with a code recorded exactly
as it is with none. -/

namespace Sys2Proof.Machine

/-! ### The error action (R292, R298) -/

/-- Settles O15: the two cases of the record. -/
theorem errorActionRecordsFirst : Obligations.ErrorActionRecordsFirst :=
  fun _ _ => ⟨raiseError_of_clear, fun _ => raiseError_of_recorded⟩

/-! ### Refusals (R293) -/

/-- A command's own rule neither reads nor writes the error record. -/
def IgnoresRecord (f : State → Except ErrCode State) : Prop :=
  ∀ (s : State) (r : Option ErrCode), f { s with err := r } = (f s).map fun t => { t with err := r }

theorem ignoresRecord_startSession : IgnoresRecord fun s => .ok (startSession s) := fun _ _ => rfl

theorem ignoresRecord_configure (m : SmoothMode) (scap fcap : Nat) : IgnoresRecord (configure m scap fcap) := by
  intro s r
  unfold configure
  split <;> rfl

theorem ignoresRecord_setFrequency : IgnoresRecord setFrequency := by
  intro s r
  unfold setFrequency
  split <;> rfl

theorem ignoresRecord_installOperand : IgnoresRecord installOperand := by
  intro s r
  unfold installOperand
  split <;> rfl

theorem ignoresRecord_accept : IgnoresRecord accept := by
  intro s r
  unfold accept
  simp only [apply_ite (Except.map _)]
  rfl

theorem ignoresRecord_startFrameJob : IgnoresRecord startFrameJob := by
  intro s r
  unfold startFrameJob
  rw [ignoresRecord_accept s r]
  cases accept s <;> rfl

theorem ignoresRecord_startSynthJob : IgnoresRecord startSynthJob := by
  intro s r
  unfold startSynthJob
  simp only [apply_ite (Except.map _)]
  rfl

section Gated

variable {ni : Bool} {need : SessionNeed} {f : State → Except ErrCode State} {s u : State} {e : ErrCode}

/-- Such a rule that accepts leaves a clear record clear. -/
theorem IgnoresRecord.err_of_ok (hf : IgnoresRecord f) (h : f { s with err := none } = .ok u) : u.err = none := by
  rw [hf s none] at h
  cases hs : f s with
  | ok t => rw [hs] at h; cases h; rfl
  | error c => rw [hs] at h; cases h

/-- Such a rule refuses with the same code whatever is recorded. -/
theorem IgnoresRecord.error (hf : IgnoresRecord f) (h : f { s with err := none } = .error e) (r : Option ErrCode) :
    f { s with err := r } = .error e := by
  rw [hf s none] at h
  rw [hf s r]
  cases hs : f s with
  | ok t => rw [hs] at h; cases h
  | error c => rw [hs] at h; cases h; rfl

/-- A gated command that records `e` in a clear record is, whatever is recorded, the error action with `e`. -/
theorem issueGated_refusal (hf : IgnoresRecord f) (h : issueGated ni need f { s with err := none } = .next u) (hu : u.err = some e)
    (r : Option ErrCode) : issueGated ni need f { s with err := r } = .next (raiseError e { s with err := r }) := by
  rcases issueGated_next h with ⟨c, hgate, rfl⟩ | ⟨c, hgate, hc, rfl⟩ | ⟨-, hok⟩
  · obtain rfl : c = e := Option.some.inj hu
    exact issueGated_refused hgate
  · obtain rfl : c = e := Option.some.inj hu
    exact issueGated_error hgate (hf.error hc r)
  · rw [hf.err_of_ok hok] at hu
    cases hu

end Gated

/-- A command that records `e` in a clear record is, whatever is recorded, the error action with `e`. -/
theorem exec_refusal {i : Instr} {s u : State} {e : ErrCode} (h : exec i { s with err := none } = .next u) (hu : u.err = some e)
    (r : Option ErrCode) : exec i { s with err := r } = .next (raiseError e { s with err := r }) := by
  cases i with
  | nop | stop | clrerr => cases h; cases hu
  | start => exact issueGated_refusal ignoresRecord_startSession h hu r
  | config m scap fcap => exact issueGated_refusal (ignoresRecord_configure m scap fcap) h hu r
  | frame v =>
    cases v with
    | false => cases h; cases hu
    | true => exact issueGated_refusal ignoresRecord_startFrameJob h hu r
  | synth => exact issueGated_refusal ignoresRecord_startSynthJob h hu r
  | push => exact issueGated_refusal ignoresRecord_accept h hu r
  | install => exact issueGated_refusal ignoresRecord_installOperand h hu r
  | setfreq => exact issueGated_refusal ignoresRecord_setFrequency h hu r

/-- Settles O16: the refusal read with a clear record and with the record as it stands. -/
theorem refusalIsPrecise : Obligations.RefusalIsPrecise := by
  intro i s u e h hu
  exact ⟨Host.Outcome.next.inj (h.symm.trans (exec_refusal h hu none)), exec_refusal h hu s.err⟩

/-! ### Who records an error (R290) -/

/-- A job that records an error is a FRAME job, and the error is INVALID_IR (R299). -/
theorem completeJob_err_of_clear {j : Job} {s : State} (hs : s.err = none) (ht : (completeJob j s).err ≠ none) :
    j.isFrame = true ∧ (completeJob j s).err = some .invalidIr := by
  rcases completeJob_cases j s with ⟨-, h⟩ | ⟨spec, f0, -, -, h⟩ | ⟨hframe, -, h⟩ <;> rw [h] at ht ⊢
  · exact absurd hs ht
  · exact absurd hs ht
  · exact ⟨hframe, by rw [raiseError_err, finishJob_err, hs, Option.getD_none]⟩

/-- An error is recorded by a write to CMD or by the completion of a FRAME job (R290). -/
theorem step_records_error {s t : State} (h : step s = .next t) (hs : s.err = none) (ht : t.err ≠ none) :
    (∃ w rest, s.schedule = commandWrite w :: rest)
      ∨ (s.schedule.head? = some .jobDone ∧ s.frameInFlight = true ∧ t.err = some .invalidIr) := by
  rcases step_cases h with ⟨-, rfl⟩ | ⟨rest, a, n, -, r, rfl⟩ | ⟨rest, a, n, v, hhead, hwrite⟩ | ⟨rest, -, rfl⟩ | ⟨rest, -, rfl⟩
    | ⟨rest, j, hhead, hj, rfl⟩ | ⟨rest, -, rfl⟩ | ⟨rest, -, rfl⟩
  · exact absurd hs ht
  · exact absurd hs ht
  · rcases hwrite with rfl | ⟨l, u, -, -, hu, rfl⟩ | ⟨rfl, rfl, -⟩ | ⟨i, rfl, rfl, -, -⟩
    · exact absurd hs ht
    · exact absurd ((storeLoc_err hu).trans hs) ht
    · exact .inl ⟨v, rest, hhead⟩
    · exact .inl ⟨v, rest, hhead⟩
  · rw [sampleTick_frame] at ht
    exact absurd hs ht
  · exact absurd hs ht
  · obtain ⟨hframe, herr⟩ := completeJob_err_of_clear (s := { s with schedule := rest }) hs ht
    exact .inr ⟨by rw [hhead]; rfl, by rw [State.frameInFlight, hj]; exact hframe, herr⟩
  · exact absurd hs ht
  · exact absurd rfl ht

/-- Settles O17: what keeps a record is O28's step lemma. -/
theorem errorRecordWriters : Obligations.ErrorRecordWriters :=
  fun _ _ h => ⟨fun _ hc => (step_keeps_recorded_error h hc).imp_right Or.symm, step_records_error h⟩

/-! ### AUDIO_FAULT (R300) -/

/-- A command keeps the AUDIO_FAULT bit, CLRERR apart. -/
theorem exec_audioFault {i : Instr} {s t : State} (h : exec i s = .next t) : t.audioFault = s.audioFault ∨ i = .clrerr := by
  rcases exec_next h with ⟨-, rfl⟩ | ⟨e, rfl, -⟩ | ⟨-, -, -, rfl⟩ | ⟨-, rfl⟩ | ⟨m, a, b, -, -, -, -, -, -, rfl⟩
    | ⟨u, -, -, -, hu, rfl⟩ | ⟨-, -, -, -, -, rfl⟩ | ⟨-, -, -, -, rfl⟩ | ⟨-, -, -, -, rfl⟩ | ⟨rfl, -⟩
  case inr.inr.inr.inr.inr.inl =>
    obtain ⟨-, -, -, -, rfl⟩ := accept_ok hu
    split <;> exact .inl rfl
  case inr.inr.inr.inr.inr.inr.inr.inr.inr => exact .inr rfl
  all_goals exact .inl rfl

theorem storeLoc_audioFault {s t : State} {v : Word} {l : Loc} (h : storeLoc s v l = some t) : t.audioFault = s.audioFault := by
  cases l <;> simp only [storeLoc, Option.some.injEq, reduceCtorEq] at h <;> subst h <;> rfl

theorem completeJob_audioFault (j : Job) (s : State) : (completeJob j s).audioFault = s.audioFault := by
  rcases completeJob_cases j s with ⟨-, h⟩ | ⟨spec, f0, -, -, h⟩ | ⟨-, -, h⟩ <;> rw [h] <;> rfl

/-- The AUDIO_FAULT bit is cleared by the CLRERR command and by RESET alone (R300). -/
theorem step_keeps_audioFault {s t : State} (h : step s = .next t) (hs : s.audioFault = true) :
    t.audioFault = true ∨ s.nextCommand = some .clrerr ∨ s.schedule.head? = some .reset := by
  rcases step_cases h with ⟨-, rfl⟩ | ⟨rest, a, n, -, r, rfl⟩ | ⟨rest, a, n, v, -, hwrite⟩ | ⟨rest, -, rfl⟩ | ⟨rest, -, rfl⟩
    | ⟨rest, j, -, -, rfl⟩ | ⟨rest, -, rfl⟩ | ⟨rest, hhead, -⟩
  · exact .inl hs
  · exact .inl hs
  · rcases hwrite with rfl | ⟨l, u, -, -, hu, rfl⟩ | ⟨-, -, rfl⟩ | ⟨i, -, -, hi, hx⟩
    · exact .inl hs
    · exact .inl ((storeLoc_audioFault hu).trans hs)
    · exact .inl hs
    · rcases exec_audioFault hx with ht | rfl
      · exact .inl (ht.trans hs)
      · exact .inr (.inl hi)
  · exact .inl (by rw [sampleTick_frame]; exact hs)
  · exact .inl hs
  · exact .inl ((completeJob_audioFault j _).trans hs)
  · exact .inl rfl
  · exact .inr (.inr (by rw [hhead]; rfl))

/-- No sample depends on the AUDIO_FAULT bit, and none changes it. -/
theorem sampleTick_withAudioFault (s : State) (b : Bool) :
    sampleTick { s with audioFault := b } = { sampleTick s with audioFault := b } := by
  unfold sampleTick
  split <;> rfl

/-- Settles O39: the event's step, the bit's stickiness, and the samples' independence of it. -/
theorem audioFaultSetsBit : Obligations.AudioFaultSetsBit := by
  refine ⟨fun s rest hs => ?_, fun s t h hs ht => ?_, sampleTick_withAudioFault⟩
  · rw [step_of_cons hs, perform, audioFaultEvent]
  · refine (step_keeps_audioFault h hs).resolve_left ?_
    rw [ht]
    nofun

end Sys2Proof.Machine
end

section
/-! PROOFS. The comparisons of F64 values (spec/00_scope.md section 5): of finite values they are those of the units, so of the real
numbers (O46). -/

namespace Sys2Proof.Fp

/-! ### Equality, in units -/

theorem key_eq_key_iff (a b : F64) : key a = key b ↔ scaled a = scaled b := by
  have hlt := key_lt_key_iff a b
  have hgt := key_lt_key_iff b a
  omega

/-- `=` of finite values, in units. Both zeros have no units, so they are equal. -/
theorem eq_iff_scaled {a b : F64} (ha : finite a = true) (hb : finite b = true) : eq a b = true ↔ scaled a = scaled b := by
  simp [eq, not_nan_of_finite ha, not_nan_of_finite hb, key_eq_key_iff]

/-! ### The units and the real numbers -/

theorem toReal_lt_toReal_iff {a b : F64} : SynthRef.toReal a < SynthRef.toReal b ↔ scaled a < scaled b := by
  rw [SynthRef.toReal, SynthRef.toReal, div_lt_div_iff_of_pos_right unitsPerOne_pos, Int.cast_lt]

theorem toReal_le_toReal_iff {a b : F64} : SynthRef.toReal a ≤ SynthRef.toReal b ↔ scaled a ≤ scaled b := by
  rw [SynthRef.toReal, SynthRef.toReal, div_le_div_iff_of_pos_right unitsPerOne_pos, Int.cast_le]

theorem toReal_eq_toReal_iff {a b : F64} : SynthRef.toReal a = SynthRef.toReal b ↔ scaled a = scaled b := by
  rw [SynthRef.toReal, SynthRef.toReal, div_left_inj' unitsPerOne_pos.ne', Int.cast_inj]

/-! ### NaN operands -/

theorem comparisons_of_nan {a b : F64} (h : isNaN a = true ∨ isNaN b = true) :
    lt a b = false ∧ le a b = false ∧ eq a b = false := by
  have hunordered : (!isNaN a && !isNaN b) = false := by rcases h with h | h <;> simp [h]
  simp [lt, le, eq, hunordered]

/-! ### The statement -/

/-- Settles O46: the three comparisons go through the units, in which every finite value is a whole number. -/
theorem comparisonsAreReal : Obligations.ComparisonsAreReal := by
  refine fun a b => ⟨fun ha hb => ⟨?_, ?_, ?_⟩, comparisons_of_nan⟩
  · rw [lt_iff_scaled ha hb, toReal_lt_toReal_iff]
  · rw [le_iff_scaled ha hb, toReal_le_toReal_iff]
  · rw [eq_iff_scaled ha hb, toReal_eq_toReal_iff]

end Sys2Proof.Fp
end

section
/-! PROOFS. RESET (spec/70_reset_and_hazards.md R320, R322): what each location shows after it (O40), what the host reads after power-up
(O41), and that the invariant holds there (O43). -/

namespace Sys2Proof.Machine

/-! ### R320's table, by location -/

/-- The value that R320's table gives a location: none for ID0, ID1 and EPS, which show the parameters, and for the buffers whose
elements it leaves unspecified. -/
def resetValue : Loc → Option Word
  | .id0 | .id1 | .eps | .specIn _ | .specOut _ | .irIn _ | .irOut _ => none
  | .actCfg => some 0x0000003200020100#64
  | .actXstep | .xstepIn => some 0x3F847AE147AE147B#64
  | .cmd | .status | .f0In | .shiftIn | .oscFreq | .xfProgress | .smoF0 | .winLen | .oscPhase | .pgState | .audioOut
  | .exportIr _ => some 0#64

section
variable (c : Config) (draw : Nat)

@[simp] theorem resetOf_running : (State.resetOf c draw).running = false := rfl
@[simp] theorem resetOf_audioFault : (State.resetOf c draw).audioFault = false := rfl
@[simp] theorem resetOf_done : (State.resetOf c draw).done = false := rfl
@[simp] theorem resetOf_mode : (State.resetOf c draw).mode = .sliding := rfl
@[simp] theorem resetOf_specCap : (State.resetOf c draw).specCap = 2 := rfl
@[simp] theorem resetOf_f0Cap : (State.resetOf c draw).f0Cap = 50 := rfl
@[simp] theorem resetOf_sw : (State.resetOf c draw).sw = [] := rfl
@[simp] theorem resetOf_fw : (State.resetOf c draw).fw = [] := rfl
@[simp] theorem resetOf_busy : (State.resetOf c draw).busy = false := rfl
@[simp] theorem resetOf_errFlag : (State.resetOf c draw).errFlag = false := rfl
@[simp] theorem resetOf_errCode : (State.resetOf c draw).errCode = 0#8 := rfl
@[simp] theorem resetOf_occField : (State.resetOf c draw).occField = 0#2 := rfl
@[simp] theorem resetOf_jobField : (State.resetOf c draw).jobField = 0#2 := rfl

theorem statusWord_resetOf : (State.resetOf c draw).statusWord = 0#64 := by
  rw [State.statusWord, resetOf_jobField, resetOf_occField, resetOf_errCode, resetOf_done, resetOf_audioFault, resetOf_errFlag,
    resetOf_busy, resetOf_running]
  rfl

theorem actCfgWord_resetOf : (State.resetOf c draw).actCfgWord = 0x0000003200020100#64 := by
  rw [State.actCfgWord, resetOf_f0Cap, resetOf_specCap, resetOf_mode]
  rfl

theorem winLenWord_resetOf : (State.resetOf c draw).winLenWord = 0#64 := by
  rw [State.winLenWord, resetOf_fw, resetOf_sw]
  rfl

end

/-- After RESET a location shows its value of R320's table, whatever the parameters and the draws. -/
theorem readLoc_resetOf (c : Config) (draw : Nat) {l : Loc} {v : Word} (h : resetValue l = some v) :
    readLoc (State.resetOf c draw) l = v := by
  cases l <;> cases h
  case status => exact statusWord_resetOf c draw
  case actCfg => exact actCfgWord_resetOf c draw
  case winLen => exact winLenWord_resetOf c draw
  case exportIr i =>
    rw [readLoc, exportIr_of_empty rfl, element, List.getD_eq_getElem?_getD, List.getElem?_getD_replicate_default_eq, Fp.zero]
  all_goals rfl

/-- ID0, ID1 and EPS show the parameters alone (R24 to R26). -/
theorem readLoc_parameters {s t : State} (hcfg : t.cfg = s.cfg) : ∀ l ∈ [Loc.id0, .id1, .eps], readLoc t l = readLoc s l := by
  simp [readLoc, State.id0Word, State.id1Word, hcfg]

/-- Settles O40: the registers by R320's table, the internal state as `State.resetOf` writes it, and the buffers by their canonical
form. -/
theorem resetLeavesTable : Obligations.ResetLeavesTable := by
  intro s rest hs
  refine ⟨_, step_of_cons hs, ?_⟩
  have hregister {l : Loc} {v : Word} (h : resetValue l = some v) : readLoc (resetEvent { s with schedule := rest }) l = v :=
    (readLoc_withSchedule _ _ l).trans (readLoc_resetOf _ _ h)
  have hzero : ∀ l ∈ [Loc.f0In, .shiftIn, .oscFreq, .oscPhase, .xfProgress, .smoF0, .audioOut, .winLen, .pgState],
      resetValue l = some 0#64 := by decide
  exact ⟨readLoc_parameters rfl, rfl, hregister rfl, hregister rfl, hregister rfl, hregister rfl, hregister rfl,
    fun l hl => hregister (hzero l hl), exportIr_of_empty rfl, rfl, rfl, rfl, rfl, rfl, rfl,
    memory_wf_iff.mp (resetOf_memory_wf s.cfg (s.draws + 1))⟩

/-! ### Power-up (R322) -/

theorem standard_wf : Config.standard.wf = true := by decide

/-- After power-up the host reads, at the offset of a location, its value of R320's table. -/
theorem wordAt_reset {a : Addr} {v : Word} (h : (locate Config.standard a.toNat).bind resetValue = some v) :
    wordAt State.reset a = some v := by
  obtain ⟨l, hl, hv⟩ := Option.bind_eq_some_iff.mp h
  rw [wordAt_of_locate (s := State.reset) hl, State.reset, readLoc_resetOf _ _ hv]

theorem wordAt_reset_exportIr {i : Nat} (h : i < Config.standard.fftSize) :
    wordAt State.reset (BitVec.ofNat 32 (0x50000 + 8 * i)) = some 0#64 :=
  (wordAt_offset (s := State.reset) (l := .exportIr i) standard_wf h).trans (congrArg some (readLoc_resetOf _ _ rfl))

/-- Settles O41: ID0, ID1 and EPS show the default parameters, and the other offsets R320's table. -/
theorem powerUpRegisters : Obligations.PowerUpRegisters := by
  refine ⟨rfl, rfl, rfl, wordAt_reset rfl, wordAt_reset rfl, wordAt_reset rfl, wordAt_reset rfl, wordAt_reset rfl, ?_,
    fun i hi => wordAt_reset_exportIr hi⟩
  simp only [List.forall_mem_cons, List.not_mem_nil, IsEmpty.forall_iff, implies_true, and_true]
  exact ⟨wordAt_reset rfl, wordAt_reset rfl, wordAt_reset rfl, wordAt_reset rfl, wordAt_reset rfl, wordAt_reset rfl,
    wordAt_reset rfl, wordAt_reset rfl, wordAt_reset rfl⟩

/-! ### The invariant -/

/-- Settles O43: power-up is the RESET of the standard parameters. -/
theorem resetHasInvariant : Obligations.ResetHasInvariant :=
  ⟨fun _ draw hc => resetOf_inv hc draw, resetOf_inv standard_wf 0⟩

end Sys2Proof.Machine
end
